-- ==== Sys2Proof/Word.lean ====
section
/-! DEFINITION. The plainest words of the Wylfor K24: bytes, keys, tags, blobs, and the one bound LIMIT.
Counters, floors, ticks and generations are `Nat`: the manual's sums of them are exact, without wrap
(00_scope, conventions, "arithmetic"), and each clamp is stated where it is made. -/

namespace Sys2Proof

/-- One byte on the wire. -/
abbrev Byte := BitVec 8

/-- A 16-byte key (R8). -/
abbrev Key := BitVec 128

/-- An 8-byte tag (R48). -/
abbrev Tag := BitVec 64

/-- A 16-byte header block of the tag function (R48). -/
abbrev Block := BitVec 128

/-- A 24-byte wrapped blob (R75). -/
abbrev Blob := BitVec 192

/-- LIMIT, the largest counter, floor and time value (00_scope, symbols). -/
def LIMIT : Nat := 4294967295

end Sys2Proof
end

