-- ==== Sys2Proof/Syntax.lean ====
section
/-! DEFINITION. The commands and events of the part: one constructor of `Instr` per row of spec/opcode_table.json.

The fourteen command rows are the EVENT AT WHICH A COMMAND FRAME IS TAKEN (R192, R194): the STOP that closes a
complete write frame at a port. The frame's fields are not operands of the row: the port holds them in its frame
receive buffer (R188), where WRITE_TRANSFER and WRITE_BYTE put them (log entry 2). -/

namespace Sys2Proof

/-- The two I2C ports: M, the metrology controller's; L, the communications module's. -/
inductive Port where
  | M
  | L
  deriving DecidableEq, Repr

/-- The port that is not `p`. -/
def Port.other : Port → Port
  | .M => .L
  | .L => .M

/-- How an abort leaves the nonvolatile write being made (R151). -/
inductive Cut where
  /-- It was written whole. -/
  | whole
  /-- It was torn: the position or bank holds nothing valid. -/
  | torn
  /-- It was not begun. -/
  | notBegun
  deriving DecidableEq, Repr

/-- The part's steps, one constructor per row of the table. -/
inductive Instr where
  /-- MAKE_TAG (R49): a complete MAKE_TAG frame at port `p` closes and is taken. -/
  | makeTag (p : Port)
  /-- CHECK_TAG (R51). -/
  | checkTag (p : Port)
  /-- PIN (R15). -/
  | pin (p : Port)
  /-- UNPIN (R18). -/
  | unpin (p : Port)
  /-- SLOT_STATUS (R21). -/
  | slotStatus (p : Port)
  /-- PART_STATUS (R201). -/
  | partStatus (p : Port)
  /-- READ_DEMAND (R182). -/
  | readDemand (p : Port)
  /-- BATCH_OPEN (R74). -/
  | batchOpen (p : Port)
  /-- BATCH_STEP (R76). -/
  | batchStep (p : Port)
  /-- BATCH_CLOSE (R77). -/
  | batchClose (p : Port)
  /-- BATCH_RESULT (R93). -/
  | batchResult (p : Port)
  /-- ACTIVATE (R103). -/
  | activate (p : Port)
  /-- CANCEL (R94). -/
  | cancel (p : Port)
  /-- UNKNOWN_COMMAND (R194): a complete frame whose command byte names no command. -/
  | unknownCommand (p : Port)
  /-- FRAME_DISCARD (R192): a STOP at port `p` that takes no frame. -/
  | frameDiscard (p : Port)
  /-- READ_TRANSFER (R196): a START and the address byte `addr` with the read bit at port `p`. -/
  | readTransfer (p : Port) (addr : BitVec 7)
  /-- STRETCH_TIMEOUT (R197): the stretch timer of port `p` reaches 20 ms. -/
  | stretchTimeout (p : Port)
  /-- BUS_TIMEOUT (R198): the bus timer of port `p` reaches 30 ms. -/
  | busTimeout (p : Port)
  /-- ISSUE (R50): the tag of the MAKE_TAG in the key engine has been computed. -/
  | issue
  /-- TAG_COMPARISON (R53): the tag of the CHECK_TAG in the key engine has been computed and is compared. -/
  | tagComparison
  /-- WRITE_COMPLETE (R144): the read-back of the entry in service agrees. -/
  | writeComplete
  /-- WRITE_FAILURE (R148): the read-back of the write being made disagrees. -/
  | writeFailure
  /-- CARRY_FORWARD (R146): the copy being made in the service of an append has succeeded. -/
  | carryForward
  /-- TICK (R124). -/
  | tick
  /-- SECOND_BEAT (R123). -/
  | secondBeat
  /-- STAGING_WINDOW_EXPIRY (R78). -/
  | stagingWindowExpiry
  /-- LIFE_WARNING (R133) of slot `slot`. -/
  | lifeWarning (slot : Nat)
  /-- EXPIRY (R132) of slot `slot`. -/
  | expiry (slot : Nat)
  /-- GRACE_END (R134) of slot `slot`. -/
  | graceEnd (slot : Nat)
  /-- PIN_LAPSE (R19) of slot `slot`. -/
  | pinLapse (slot : Nat)
  /-- SCHEDULED_ACTIVATION (R104). -/
  | scheduledActivation
  /-- AUTHENTICATOR_CHECK (R81): the authenticator check in the key engine completes. -/
  | authenticatorCheck
  /-- UNWRAP (R86): the unwrap in the key engine completes. -/
  | unwrap
  /-- PFWN_ASSERT (R163): PFWN goes low. -/
  | pfwnAssert
  /-- PFWN_RELEASE (R165): PFWN goes high. -/
  | pfwnRelease
  /-- RSTN_LOW (R168): RSTN goes low; `cut` is what becomes of the write being made. -/
  | rstnLow (cut : Cut)
  /-- SUPPLY_LOSS (R168): the supply is lost; `cut` is what becomes of the write being made. -/
  | supplyLoss (cut : Cut)
  /-- RSTN_RELEASE (R169): RSTN goes high; `adrM` and `adrL` are the levels of ADRM and ADRL from then on. -/
  | rstnRelease (adrM adrL : Bool)
  /-- SUPPLY_RETURN (R168): the supply comes into range; `adrM`, `adrL` as for `rstnRelease`. -/
  | supplyReturn (adrM adrL : Bool)
  /-- WRITE_TRANSFER (R189): a START and the address byte `addr` with the write bit at port `p`. -/
  | writeTransfer (p : Port) (addr : BitVec 7)
  /-- WRITE_BYTE (R190): the ninth clock of one byte that the master sends at port `p`. -/
  | writeByte (p : Port) (byte : Byte)
  deriving DecidableEq, Repr

end Sys2Proof
end

