-- ==== Sys2Proof/Config.lean ====
section
/-! DEFINITION. What the manual leaves to the part: the cryptographic functions, which it names by what they take and
give (00_scope, "scope of this manual"), and the values it does not state. Each is opaque: no proof can see its value. -/

namespace Sys2Proof

/-- The tag function (R48): a key, the header block and the message already padded with zero bytes, to an 8-byte tag.
FREE VALUE, log entry 5. -/
opaque Config.tagFunction : Key → Block → List Byte → Tag

/-- The unwrap function (R61): the blob, the renewal key, the target slot and the target generation, to a key and a
verdict (`true` for good). FREE VALUE, log entry 5. -/
opaque Config.unwrapFunction : Blob → Key → Nat → Nat → Key × Bool

/-- The factory key that bank 0 holds as delivered (R23). FREE VALUE, log entry 6. -/
opaque Config.factoryKey : Key

/-- What the key engine reads as the key of a bank that holds no image; the manual gives no operation that reads
one. The argument is the bank number. FREE VALUE, log entry 7. -/
opaque Config.unreadableKey : Nat → Key

/-- The check value of an image, over its slot, generation and key (R140). The manual gives neither its function nor its width, which
the model takes to be that of a record's. FREE VALUE, log entry 36. -/
opaque Config.imageCheck : Nat → Nat → Key → BitVec 16

/-- The status byte of NOT_USER: chapter 11's table of codes, which gives every other status its value, has no entry for it.
FREE VALUE, log entry 9. -/
opaque Config.notUserCode : Byte

/-- Which of several lap values counts as the newest, where R139's definition fits more than one of those that the
valid records carry: an index into them. FREE VALUE, log entry 8. -/
opaque Config.newestLapChoice : List (BitVec 8) → Nat

end Sys2Proof
end

