-- ==== Sys2Proof/Machine/State.lean ====
section
/-! DEFINITION. Everything the manual gives the part to hold, as plain data, and the state right after reset.

The blocks follow the manual's block diagram: ports, demand unit, engine arbiter, key engine, key table, renewal engine,
commit, time base, journal controller with the nonvolatile store, supply monitor. -/

namespace Sys2Proof.Machine

/-! ## Stops -/

/-- Reasons the machine stops with a fault: NONE. The FAULT of the manual is a run state (R161), not a stop, and every
command has an effect in every state, so no constructor is needed. -/
inductive Fault where
  deriving DecidableEq, Repr

/-- Reasons a command is refused. -/
inductive Refusal where
  /-- Raised by `exec`'s arm of a command that has no meaning yet (safe: the run stops). No arm raises it. -/
  | notModelled (mnemonic : String)
  deriving DecidableEq, Repr

/-! ## Key table (chapter 1) -/

/-- A set of ports: a user map or a notify map (00_scope, conventions, "sets"). -/
structure PortSet where
  m : Bool
  l : Bool
  deriving DecidableEq, Repr

/-- Whether `p` is in the set. -/
def PortSet.has (w : PortSet) : Port → Bool
  | .M => w.m
  | .L => w.l

/-- {} -/
def PortSet.none : PortSet := ⟨false, false⟩

/-- {M, L} -/
def PortSet.both : PortSet := ⟨true, true⟩

/-- The set that holds one port. -/
def PortSet.only : Port → PortSet
  | .M => ⟨true, false⟩
  | .L => ⟨false, true⟩

/-- The role of a slot (R2). -/
inductive Role where
  | empty
  | issue
  | accept
  | renew
  deriving DecidableEq, Repr

/-- Whether a new cell carries on from the old CURRENT (CONTINUE) or starts at 0 (RESTART) (R7). -/
inductive Continuation where
  | carryOn
  | restart
  deriving DecidableEq, Repr

/-- The six fields of a policy (R7). -/
structure Policy where
  /-- S -/
  stride : Nat
  /-- Kw -/
  warnStrides : Nat
  /-- Wl -/
  lifeWarn : Nat
  /-- G -/
  grace : Nat
  pinTicks : Nat
  continuation : Continuation
  deriving DecidableEq, Repr

/-- The fixed policy of slot 0 (R3). -/
def Policy.renewal : Policy := ⟨1, 0, 0, 0, 0, .carryOn⟩

/-- A pin (R1, R16). -/
structure Pin where
  holder : Port
  generation : Nat
  pinEnd : Nat
  deriving DecidableEq, Repr

/-- The state of a CURRENT cell (R9). -/
inductive CellState where
  | live
  | spent
  | expired
  deriving DecidableEq, Repr

/-- The numbers of a CURRENT cell (R8): an issue counter, a ceiling and a cell limit on an ISSUE slot (R25); an accept
floor and a persisted floor on an ACCEPT slot and slot 0 (R36). -/
inductive Counters where
  | issue (n ceiling limit : Nat)
  | floor (f persisted : Nat)
  deriving DecidableEq, Repr

/-- A CURRENT cell (R8) with its warned mark (R31, R41) and life-warned mark (R133). `bank` is the bank map's entry:
which of the slot's three banks holds the key (R13). -/
structure Current where
  generation : Nat
  state : CellState
  /-- A -/
  activation : Nat
  /-- L -/
  lifetime : Option Nat
  counters : Counters
  bank : Fin 3
  warned : Bool
  lifeWarned : Bool
  deriving DecidableEq, Repr

/-- A NEXT cell (R8, R10). -/
structure Next where
  generation : Nat
  /-- READY; PENDING otherwise. -/
  ready : Bool
  lifetime : Option Nat
  budget : Option Nat
  bank : Fin 3
  deriving DecidableEq, Repr

/-- A PRIOR cell (R8, R11); its state is always GRACE. -/
structure Prior where
  generation : Nat
  activation : Nat
  f : Nat
  persisted : Nat
  /-- Ge -/
  graceEnd : Nat
  bank : Fin 3
  deriving DecidableEq, Repr

/-- The position of a cell that a CHECK_TAG matched (R52). -/
inductive Position where
  | current
  | prior
  deriving DecidableEq, Repr

/-- The record in flight of a slot write wait (R54). -/
inductive WaitRecord where
  | ceiling (generation value : Nat)
  | floor (generation value : Nat) (position : Position)
  deriving DecidableEq, Repr

/-- A slot write wait (R54): the record, the owner, the waiters in arrival order. -/
structure WriteWait where
  record : WaitRecord
  owner : Port
  waiters : List Port
  deriving DecidableEq, Repr

/-- A slot record (R1), with the slot's write wait, which the key engine keeps for it (R54). -/
structure Slot where
  role : Role
  userMap : PortSet
  notifyMap : PortSet
  policy : Option Policy
  pin : Option Pin
  current : Option Current
  next : Option Next
  prior : Option Prior
  wait : Option WriteWait
  deriving DecidableEq, Repr

/-- An EMPTY slot (R2). -/
def Slot.blank : Slot := ⟨.empty, .none, .none, none, none, none, none, none, none⟩

/-! ## Demand unit (chapter 9) -/

/-- Demand kinds (R178). -/
inductive DemandKind where
  | counterLow
  | spent
  | lifeLow
  | expired
  | pinLapsed
  | batchArmed
  | batchRefused
  | batchDone
  | restarted
  | queueFull
  deriving DecidableEq, Repr

/-- A demand entry (R178). -/
structure Demand where
  kind : DemandKind
  slot : Option (Fin 24)
  generation : Option Nat
  sequence : Option Nat
  /-- T stamp -/
  stamp : Nat
  deriving DecidableEq, Repr

/-! ## Ports (chapter 10) -/

/-- Status codes (chapter 10, "status codes"; the values stand in chapter 11). -/
inductive Status where
  | ok
  | pending
  | deferred
  | noReply
  | badLength
  | badField
  | unknownCommand
  | notPermitted
  | noSlot
  | wrongRole
  | notUser
  | noKey
  | spent
  | expired
  | genMoved
  | unknownGen
  | replayed
  | badTag
  | pinnedElsewhere
  | notPinned
  | notPinnable
  | activationDue
  | wrongState
  | stepOrder
  | stepCount
  | duplicateSlot
  | wrongBatch
  | tooLate
  | fault
  | retired
  deriving DecidableEq, Repr

/-- The framing state of a port (R188). -/
inductive Framing where
  | idle
  | write
  | read
  | stretch
  deriving DecidableEq, Repr

/-- How far the open write frame has come: only its address, its command byte, or its length byte too (R190, R192). -/
inductive RxPhase where
  | address
  | command
  | length
  deriving DecidableEq, Repr

/-- The frame receive buffer (R188): the address, command and length bytes as received, and the payload bytes. -/
structure FrameBuffer where
  address : Option Byte
  command : Option Byte
  length : Option Byte
  payload : List Byte
  deriving DecidableEq, Repr

/-- A request in flight (R188): one that is not completed at the event at which it is taken. The message of a MAKE_TAG or
CHECK_TAG stays in the frame receive buffer (R47). -/
inductive Request where
  | makeTag (slot : Nat) (expected : Option Nat)
  | checkTag (slot generation counter : Nat) (tag : Tag)
  | pin (slot : Nat)
  | unpin (slot : Nat)
  | cancel (sequence : Nat)
  deriving DecidableEq, Repr

/-- The reply buffer (R188). -/
inductive ReplyBuffer where
  | noReply
  | notReady
  | reply (status : Status) (payload : List Byte)
  deriving DecidableEq, Repr

/-- A timer of the manual: its durations decide only when its own event comes (00_scope, characteristics), so it is held as
stopped or running (log entry 3). -/
inductive Timer where
  | stopped
  | running
  deriving DecidableEq, Repr

/-- The answer a port drove on SDA at the ninth clock of the last byte it answered (R189, R190). -/
inductive Answer where
  | ack
  | nack
  deriving DecidableEq, Repr

/-- The port record (R188). `sending` and `answer` are what the port drives on SDA: the bytes fixed for the read in progress
or the last one (R196), after which it sends FFh (`PortRecord.sends`), and the last acknowledge. -/
structure PortRecord where
  framing : Framing
  address : BitVec 7
  latch : Bool
  byteCount : Nat
  phase : RxPhase
  buffer : FrameBuffer
  request : Option Request
  reply : ReplyBuffer
  lastRefusal : Status
  busTimer : Timer
  stretchTimer : Timer
  sending : List Byte
  answer : Option Answer
  deriving DecidableEq, Repr

/-- The port record as an abort leaves it (R168, R188). The address is 4Ah until start-up samples ADRx. -/
def PortRecord.cleared : PortRecord :=
  { framing := .idle, address := 0x4A, latch := false, byteCount := 0, phase := .address,
    buffer := ⟨none, none, none, []⟩, request := none, reply := .noReply, lastRefusal := .ok,
    busTimer := .stopped, stretchTimer := .stopped, sending := [], answer := none }

/-! ## Renewal engine and commit (chapters 4 and 5) -/

/-- Life-cycle state (R160). -/
inductive LifeCycle where
  | factory
  | operational
  | retired
  deriving DecidableEq, Repr

/-- The define part of an INSTALL step (R75). -/
structure DefinePart where
  role : Role
  userMap : PortSet
  notifyMap : PortSet
  deriving DecidableEq, Repr

/-- The slot and part of a step as BATCH_STEP carries them (R75). -/
inductive StepPart where
  | install (slot : Fin 24) (generation : Nat) (blob : Blob) (lifetime budget : Option Nat)
      (definePart : Option DefinePart) (policy : Option Policy)
  | policy (slot : Fin 24) (policy : Policy) (userMap notifyMap : Option PortSet)
  | clear (slot : Fin 24)
  | endGrace (slot : Fin 24)
  | lifecycle (target : LifeCycle) (code : Option Nat)
  deriving DecidableEq, Repr

/-- A step record of the batch buffer, with its payload bytes exactly as taken until the authenticator stage has
completed (R204). -/
structure StepRecord where
  index : Nat
  required : Bool
  part : StepPart
  bytes : List Byte
  deriving DecidableEq, Repr

/-- The slot and part of an applied step as the journal keeps them: without the blob, and for INSTALL with the bank of
its NEXT cell (R88, R138). -/
inductive AppliedPart where
  | install (slot : Fin 24) (generation : Nat) (lifetime budget : Option Nat)
      (definePart : Option DefinePart) (policy : Option Policy) (bank : Fin 3)
  | policy (slot : Fin 24) (policy : Policy) (userMap notifyMap : Option PortSet)
  | clear (slot : Fin 24)
  | endGrace (slot : Fin 24)
  | lifecycle (target : LifeCycle) (code : Option Nat)
  deriving DecidableEq, Repr

/-- An applied step (R89). -/
structure AppliedStep where
  index : Nat
  part : AppliedPart
  deriving DecidableEq, Repr

/-- Step reasons (R92, chapter 11). -/
inductive StepReason where
  | role
  | define
  | gen
  | wrap
  | slot0
  | lifecycle
  | grace
  deriving DecidableEq, Repr

/-- An entry of the step outcome list (R92). -/
inductive StepOutcome where
  | applied
  | dropped (reason : StepReason)
  deriving DecidableEq, Repr

/-- Why a batch was refused (R92). -/
inductive BatchReason where
  | oldSequence
  | badAuth
  | stepFailed (index : Nat) (reason : StepReason)
  | timeout
  | powerWarning
  | fault
  deriving DecidableEq, Repr

/-- The outcome of the latest batch (R92). -/
inductive BatchOutcome where
  | none
  | checking
  | armed
  | done
  | refused (reason : BatchReason)
  | cancelled
  deriving DecidableEq, Repr

/-- The batch result (R92). -/
structure BatchResult where
  sequence : Nat
  outcome : BatchOutcome
  steps : List StepOutcome
  deriving DecidableEq, Repr

/-- The batch header (R71, R74). A header restored by start-up holds the sequence alone (R99); `bytes` are the seven payload
bytes of its BATCH_OPEN (R204). -/
structure Header where
  sequence : Nat
  count : Option Nat
  delay : Option Nat
  bytes : List Byte
  deriving DecidableEq, Repr

/-- The states of the renewal engine (R72). -/
inductive RenewalState where
  | idle
  | staging
  | checking
  | armed
  | committing
  deriving DecidableEq, Repr

/-- The stage of checking in hand (R71, R79). The sequence stage is made at the event BATCH_CLOSE is taken (R77, R80). -/
inductive CheckStage where
  /-- The authenticator check is presented or in the engine (R81). -/
  | authenticator
  /-- The FLOOR record that consumes the sequence has been handed over (R81). -/
  | floorWrite
  /-- The unwrap of the step at this place of the buffer is presented or in the engine (R86). -/
  | unwrap (i : Nat)
  /-- The bank write of the step at this place of the buffer waits for a place in the queue (R79). -/
  | bankPlace (i : Nat)
  /-- All steps are decided; bank writes remain (R87). -/
  | images
  /-- STEP records are being handed over; `rest` are those not yet handed over (R88). -/
  | records (rest : List AppliedStep)
  /-- The ARM record has been handed over (R88). -/
  | arm
  deriving DecidableEq, Repr

/-- The renewal engine (R71, R102). `applied` is the batch buffer in the form the journal holds, from the records stage on
(R89); the bank writes not yet completed are those of the NEXT cells in PENDING. -/
structure Renewal where
  state : RenewalState
  header : Option Header
  buffer : List StepRecord
  applied : List AppliedStep
  authenticator : Option Tag
  checking : Option CheckStage
  activationTick : Option Nat
  disarm : Bool
  /-- The activation-requested flag (R101). -/
  activation : Bool
  windowCount : Nat
  result : BatchResult
  lastCommitted : Nat
  deriving DecidableEq, Repr

/-- The renewal engine in IDLE after start-up (R99, R102). -/
def Renewal.idle : Renewal :=
  { state := .idle, header := none, buffer := [], applied := [], authenticator := none, checking := none,
    activationTick := none, disarm := false, activation := false, windowCount := 0,
    result := ⟨0, .none, []⟩, lastCommitted := 0 }

/-! ## Nonvolatile store and journal controller (chapter 7) -/

/-- The metadata of a CURRENT cell in a SLOT record (R138). -/
structure CurrentMeta where
  generation : Nat
  activation : Nat
  lifetime : Option Nat
  /-- Lc, for ISSUE slots. -/
  limit : Option Nat
  bank : Fin 3
  deriving DecidableEq, Repr

/-- The metadata of a PRIOR cell in a SLOT record (R138). -/
structure PriorMeta where
  generation : Nat
  activation : Nat
  graceEnd : Nat
  bank : Fin 3
  deriving DecidableEq, Repr

/-- What a SLOT record says of its slot (R138). The bank map is in the `bank` fields. -/
structure SlotMeta where
  role : Role
  userMap : PortSet
  notifyMap : PortSet
  policy : Option Policy
  current : Option CurrentMeta
  prior : Option PriorMeta
  deriving DecidableEq, Repr

/-- The kind and body of a journal record (R138). `origin` is the batch sequence of the commit that wrote it, or none. -/
inductive Body where
  | slot (slot : Fin 24) (origin : Option Nat) (content : SlotMeta)
  | ceiling (slot : Fin 24) (generation value : Nat) (origin : Option Nat)
  | floor (slot : Fin 24) (generation value : Nat) (origin : Option Nat)
  | time (tb : Nat)
  | step (sequence : Nat) (step : AppliedStep)
  | arm (sequence : Nat) (slots : List (Fin 24)) (tick : Option Nat) (outcomes : List StepOutcome)
  | disarm (sequence : Nat)
  | commitBegin (sequence tc : Nat)
  | commitEnd (sequence : Nat)
  | lifecycle (state : LifeCycle) (code : Nat) (origin : Option Nat)
  deriving DecidableEq, Repr

end Sys2Proof.Machine

/-- The check value that R139 computes from the other 62 bytes of a record: its lap number, kind and body. The manual gives neither
its function nor the layout of those bytes. FREE VALUE, log entry 4. -/
opaque Sys2Proof.Config.recordCheck : BitVec 8 → Sys2Proof.Machine.Body → BitVec 16

namespace Sys2Proof.Machine

/-- The bytes of a ring position read as a record (R138, R139): lap number, kind and body, and the check value stored with them. -/
structure Record where
  lap : BitVec 8
  body : Body
  check : BitVec 16
  deriving DecidableEq, Repr

/-- A record as the controller writes it (R138): it carries the check value of its own bytes. -/
def Record.made (lap : BitVec 8) (body : Body) : Record := ⟨lap, body, Config.recordCheck lap body⟩

/-- What a ring position that is not erased holds (R137): the bytes of a record with its stored check value, or bytes that a failed or
torn write left, which agree with no check value (log entry 4). -/
inductive RingCell where
  | record (r : Record)
  | spoiled
  deriving DecidableEq, Repr

/-- What a bank that is not erased holds (R140): an image with its stored check value, or bytes that a failed or torn write left, which
are no image (log entry 36). -/
inductive BankCell where
  | image (slot : Fin 24) (generation : Nat) (key : Key) (check : BitVec 16)
  | spoiled
  deriving DecidableEq, Repr

/-- The image of a key as a bank write leaves it (R140): it carries the check value over slot, generation and key. -/
def BankCell.made (slot : Fin 24) (generation : Nat) (key : Key) : BankCell :=
  .image slot generation key (Config.imageCheck slot.val generation key)

/-- A nonvolatile write (R142). The bank of `slot` numbered `bank` is bank 3·slot + bank of the store (R13). -/
inductive Write where
  | append (body : Body)
  | bankWrite (slot : Fin 24) (bank : Fin 3) (generation : Nat) (key : Key)
  | bankErase (slot : Fin 24) (bank : Fin 3)
  deriving DecidableEq, Repr

/-- The requester of a write (R142, R143). `attached` is false once the batch that handed it over has ended, so that its
completion is reported to no one (R145); `last` marks the last record of its stage. The roll-forward of start-up uses the
requesters of the commit. -/
inductive Requester where
  | engine (slot : Fin 24)
  | checkFloor (attached : Bool)
  | checkBank (attached : Bool) (slot : Fin 24)
  | checkStep (attached : Bool) (last : Bool)
  | checkArm
  | commitBegin
  | commitRecord (last : Bool)
  | commitEnd
  | disarm
  | time
  | erase
  deriving DecidableEq, Repr

/-- An entry of the write queue or the place list (R142). The oldest entry of the queue is in service, every other waits. -/
structure Entry where
  write : Write
  requester : Requester
  deriving DecidableEq, Repr

/-- The nonvolatile store and the journal controller (R137, R142). `ring` and `banks` list, in rising order, the positions
and banks that are not erased; `live` is the live map, the positions that hold a live record, in rising order. -/
structure Journal where
  ring : List (Nat × RingCell)
  banks : List (Nat × BankCell)
  queue : List Entry
  place : List Entry
  writePosition : Nat
  lap : BitVec 8
  live : List Nat
  failures : Nat
  deriving DecidableEq, Repr

/-- The new contents that a commit has computed for one slot (R111). `installed` is true where the step placed a new CURRENT. -/
structure NewSlot where
  slot : Fin 24
  role : Role
  userMap : PortSet
  notifyMap : PortSet
  policy : Option Policy
  current : Option Current
  prior : Option Prior
  installed : Bool
  deriving DecidableEq, Repr

/-- The stages of a commit (R110, R114). Compute is made at the completion of COMMIT_BEGIN (R111). -/
inductive CommitStage where
  | begin
  | records
  | ending
  deriving DecidableEq, Repr

/-- A commit in progress, or the roll-forward of one at start-up (`rolling`): its commit time, its stage, the contents it has
computed, the LIFECYCLE change it has recorded, and the records it has not yet handed over (R110 to R114, R155). -/
structure Commit where
  tc : Nat
  rolling : Bool
  stage : CommitStage
  slots : List NewSlot
  lifecycle : Option (LifeCycle × Option Nat)
  rest : List Body
  deriving DecidableEq, Repr

/-! ## Key engine and arbiter (chapter 3) -/

/-- The inputs of a checking operation (R60, R61), as checking presents them to the arbiter. -/
inductive CheckInput where
  | authenticator (sequence : Nat) (message : List Byte) (tag : Tag)
  | unwrap (blob : Blob) (slot : Fin 24) (generation : Nat) (bank : Fin 3)
  deriving DecidableEq, Repr

/-- The operation that occupies the key engine between two events (R47).

* `issue`: a MAKE_TAG whose value has been taken and whose tag is being computed (R50).
* `compare`: a matched CHECK_TAG whose tag is being computed (R53); `edge` is P + S of the matched cell.
* `check`: a checking operation with, where slot 0's CURRENT was LIVE at the grant, that cell's generation and bank
  (R60, R61); `attached` is false once its batch has ended, so that its result is discarded (R62). -/
inductive EngineOp where
  | issue (port : Port) (slot : Fin 24) (generation counter : Nat) (last : Bool) (bank : Fin 3)
  | compare (port : Port) (slot : Fin 24) (generation counter : Nat) (tag : Tag) (position : Position)
      (bank : Fin 3) (edge : Nat)
  | check (attached : Bool) (input : CheckInput) (key : Option (Nat × Fin 3))
  deriving DecidableEq, Repr

/-- An entry of the resumed list (R63): the port of the operation and, for the owner of a FLOOR write, the position and
generation of the cell it was compared against (R56). -/
structure Resumed where
  port : Port
  accepted : Option (Position × Nat)
  deriving DecidableEq, Repr

/-- The table hold (R63). -/
inductive Hold where
  | none
  | requested
  | granted
  deriving DecidableEq, Repr

/-- The engine arbiter (R63). `waitM` and `waitL` say whether the request in flight of that port waits as its port request. -/
structure Arbiter where
  resumed : List Resumed
  hold : Hold
  waitM : Bool
  waitL : Bool
  checking : Option CheckInput
  turn : Port
  passed : Nat
  deriving DecidableEq, Repr

/-- The arbiter after start-up (R63). -/
def Arbiter.start : Arbiter := ⟨[], .none, false, false, none, .L, 0⟩

/-! ## Time base and supply monitor (chapters 6 and 8) -/

/-- The time base (R121). -/
structure TimeBase where
  t : Nat
  tb : Nat
  code : Nat
  checkpoint : Option Nat
  deferred : Bool
  tickTimer : Timer
  beatTimer : Timer
  deriving DecidableEq, Repr

/-- Run states (R161). -/
inductive RunState where
  | starting
  | run
  | flush
  | quiescent
  | fault
  deriving DecidableEq, Repr

/-- The erase progress (R160): the slot in hand and the item in hand, 0 to 2 a bank of the slot, 3 its SLOT record. -/
inductive Erase where
  | none
  | at (slot : Fin 24) (item : Fin 4)
  | complete
  deriving DecidableEq, Repr

/-- The supply monitor (R160) and the input pins it and the ports read: whether the supply is in range, whether RSTN is low,
the levels of ADRM and ADRL (high is true). `warning` is the level of PFWN as last taken (true: asserted). -/
structure Supply where
  run : RunState
  lifeCycle : LifeCycle
  warning : Bool
  faultMark : Bool
  erase : Erase
  inRange : Bool
  rstnLow : Bool
  adrM : Bool
  adrL : Bool
  deriving DecidableEq, Repr

/-! ## The part -/

/-- The state of the part, and the queue of commands that wait to be taken. -/
structure State where
  pending : List Instr
  slots : Vector Slot 24
  engine : Option EngineOp
  arbiter : Arbiter
  renewal : Renewal
  commit : Option Commit
  time : TimeBase
  journal : Journal
  supply : Supply
  queueM : List Demand
  queueL : List Demand
  portM : PortRecord
  portL : PortRecord
  deriving DecidableEq, Repr

/-- Slot 0 as delivered (R3, R23), as its SLOT record gives it. -/
def SlotMeta.delivered : SlotMeta :=
  { role := .renew, userMap := .none, notifyMap := .both, policy := some .renewal,
    current := some ⟨1, 0, none, none, 0⟩, prior := none }

/-- The ring as delivered (R137): four records with lap number 0, every other position erased. -/
def deliveredRing : List (Nat × RingCell) :=
  [(0, .record (.made 0 (.lifecycle .factory 0 none))),
   (1, .record (.made 0 (.slot 0 none .delivered))),
   (2, .record (.made 0 (.floor 0 1 0 none))),
   (3, .record (.made 0 (.time 0)))]

/-- The banks as delivered (R137): bank 0 holds the factory key of slot 0 generation 1, every other bank is erased. -/
def deliveredBanks : List (Nat × BankCell) :=
  [(0, .made 0 1 Config.factoryKey)]

/-- The part after an abort (R168): every volatile part cleared, the run state STARTING, the store and the input pins as
given. The command queue is the model's own and is kept. -/
def State.aborted (pending : List Instr) (ring : List (Nat × RingCell)) (banks : List (Nat × BankCell))
    (pins : Supply) : State :=
  { pending := pending
    slots := Vector.replicate 24 Slot.blank
    engine := none
    arbiter := .start
    renewal := .idle
    commit := none
    time := ⟨0, 0, 0, none, false, .stopped, .stopped⟩
    journal := ⟨ring, banks, [], [], 0, 0, [], 0⟩
    supply := { pins with run := .starting, lifeCycle := .factory, faultMark := false, erase := .none }
    queueM := []
    queueL := []
    portM := .cleared
    portL := .cleared }

/-- The machine right after reset: the part as delivered (R23, R137), with its supply in range and RSTN low, so that the
stages of start-up have not begun (R168). PFWN is released and both address pins are low (log entry 1). -/
def State.reset : State :=
  .aborted [] deliveredRing deliveredBanks
    { run := .starting, lifeCycle := .factory, warning := false, faultMark := false, erase := .none,
      inRange := true, rstnLow := true, adrM := false, adrL := false }

end Sys2Proof.Machine
end

