-- ==== Sys2Proof/Machine/Bytes.lean ====
section
/-! DEFINITION. Byte order and the code tables of chapter 11. -/

namespace Sys2Proof.Machine

/-- The number `n` in `width` bytes, most significant byte first (00_scope, "byte order"). -/
def beBytes : (width n : Nat) → List Byte
  | 0, _ => []
  | w + 1, n => BitVec.ofNat 8 (n / 256 ^ w) :: beBytes w n

/-- The number that bytes spell, most significant byte first. -/
def beNat (bs : List Byte) : Nat := bs.foldl (fun a b => a * 256 + b.toNat) 0

/-- The `len` bytes of `bs` from offset `off`. -/
def bytesAt (off len : Nat) (bs : List Byte) : List Byte := (bs.drop off).take len

/-- The number in the `len`-byte field of `bs` at offset `off`. -/
def fieldAt (off len : Nat) (bs : List Byte) : Nat := beNat (bytesAt off len bs)

/-- A byte of flags, bit 0 first. -/
def flagByte (bits : List Bool) : Byte :=
  BitVec.ofNat 8 (bits.foldr (fun b n => (if b then 1 else 0) + 2 * n) 0)

/-- Status code values (chapter 11). The table there has no entry for NOT_USER, whose value is free (log entry 9). -/
def Status.code : Status → Byte
  | .ok => 0x00
  | .pending => 0x01
  | .deferred => 0x02
  | .noReply => 0x03
  | .badLength => 0x10
  | .badField => 0x11
  | .unknownCommand => 0x12
  | .notPermitted => 0x13
  | .noSlot => 0x14
  | .wrongRole => 0x15
  | .noKey => 0x16
  | .spent => 0x17
  | .expired => 0x18
  | .genMoved => 0x19
  | .unknownGen => 0x1A
  | .replayed => 0x1B
  | .badTag => 0x1C
  | .notUser => Config.notUserCode
  | .pinnedElsewhere => 0x20
  | .notPinned => 0x21
  | .notPinnable => 0x22
  | .activationDue => 0x24
  | .wrongState => 0x25
  | .stepOrder => 0x26
  | .stepCount => 0x27
  | .duplicateSlot => 0x28
  | .wrongBatch => 0x29
  | .tooLate => 0x2A
  | .fault => 0x30
  | .retired => 0x31

/-- Whether a status is a refusal (chapter 10): every code but OK, PENDING, DEFERRED and NO_REPLY. -/
def Status.isRefusal : Status → Bool
  | .ok => false
  | .pending => false
  | .deferred => false
  | .noReply => false
  | _ => true

/-- The bytes of a reply frame: status, length byte m, payload (chapter 11, frames). -/
def replyBytes (st : Status) (payload : List Byte) : List Byte :=
  st.code :: BitVec.ofNat 8 payload.length :: payload

/-- Role codes. -/
def Role.code : Role → Byte
  | .empty => 0x00
  | .issue => 0x01
  | .accept => 0x02
  | .renew => 0x03

/-- A port map: bit 0 port M, bit 1 port L. -/
def PortSet.code (w : PortSet) : Byte := flagByte [w.m, w.l]

/-- The port map of a byte; bits 2 to 7 are zero. -/
def PortSet.decode (b : Byte) : Option PortSet :=
  if b.toNat < 4 then some ⟨b.getLsbD 0, b.getLsbD 1⟩ else Option.none

/-- Continuation codes. -/
def Continuation.code : Continuation → Byte
  | .carryOn => 0x00
  | .restart => 0x01

/-- Life-cycle state codes. -/
def LifeCycle.code : LifeCycle → Byte
  | .factory => 0x00
  | .operational => 0x01
  | .retired => 0x02

/-- Run state codes; 00h, 02h and 03h are never sent (R162). -/
def RunState.code : RunState → Byte
  | .starting => 0x00
  | .run => 0x01
  | .flush => 0x02
  | .quiescent => 0x03
  | .fault => 0x04

/-- Renewal engine state codes. -/
def RenewalState.code : RenewalState → Byte
  | .idle => 0x00
  | .staging => 0x01
  | .checking => 0x02
  | .armed => 0x03
  | .committing => 0x04

/-- Cell state codes of a CURRENT cell. -/
def CellState.code : CellState → Byte
  | .live => 0x01
  | .spent => 0x02
  | .expired => 0x03

/-- Cell state code of a NEXT cell: PENDING or READY. -/
def Next.stateCode (c : Next) : Byte := if c.ready then 0x05 else 0x04

/-- Cell state code of a PRIOR cell: GRACE. -/
def graceCode : Byte := 0x06

/-- Cell position codes. -/
def Position.code : Position → Byte
  | .current => 0x00
  | .prior => 0x01

/-- Batch outcome codes. -/
def BatchOutcome.code : BatchOutcome → Byte
  | .none => 0x00
  | .checking => 0x01
  | .armed => 0x02
  | .done => 0x03
  | .refused _ => 0x04
  | .cancelled => 0x05

/-- Batch reason codes. -/
def BatchReason.code : BatchReason → Byte
  | .oldSequence => 0x01
  | .badAuth => 0x02
  | .stepFailed _ _ => 0x03
  | .timeout => 0x04
  | .powerWarning => 0x05
  | .fault => 0x06

/-- Step reason codes. -/
def StepReason.code : StepReason → Byte
  | .role => 0x01
  | .define => 0x02
  | .gen => 0x03
  | .wrap => 0x04
  | .slot0 => 0x05
  | .lifecycle => 0x06
  | .grace => 0x07

/-- Step outcome codes: 00h APPLIED, 10h plus the step reason for DROPPED. -/
def StepOutcome.code : StepOutcome → Byte
  | .applied => 0x00
  | .dropped r => 0x10 + r.code

/-- Demand kind codes. -/
def DemandKind.code : DemandKind → Byte
  | .counterLow => 0x01
  | .spent => 0x02
  | .lifeLow => 0x03
  | .expired => 0x04
  | .pinLapsed => 0x05
  | .batchArmed => 0x06
  | .batchRefused => 0x07
  | .batchDone => 0x08
  | .restarted => 0x09
  | .queueFull => 0x0A

/-! ## The tag function's input (R48) -/

/-- The header block: slot, generation, counter, message length, seven zero bytes. DEDUCED (log 44): each field of more than one byte
stands most significant byte first, as on the wire; R48 gives the offsets of the fields and not the order of their bytes. -/
def headerBlock (slot generation counter length : Nat) : Block :=
  BitVec.ofNat 128 (beNat (beBytes 1 slot ++ beBytes 2 generation ++ beBytes 4 counter ++ beBytes 2 length ++ beBytes 7 0))

/-- The message with zero bytes added up to the next multiple of 16 bytes. -/
def padMessage (msg : List Byte) : List Byte :=
  msg ++ List.replicate ((16 - msg.length % 16) % 16) 0

/-- The tag over a header block and a message (R48). -/
def tagOver (key : Key) (slot generation counter : Nat) (msg : List Byte) : Tag :=
  Config.tagFunction key (headerBlock slot generation counter msg.length) (padMessage msg)

end Sys2Proof.Machine
end

