-- ==== Sys2Proof/Machine/Journal.lean ====
section
/-! DEFINITION. The nonvolatile store, the live map and the appending of records (R137 to R149), and the scan's order of
records (R139, R141, R152). The store is two sparse tables in one canonical form: keys strictly rising, and no entry for a
position or bank that is erased. -/

namespace Sys2Proof.Machine

/-! ## Sparse tables -/

/-- The entry at a key; none where the key is not listed (erased). -/
def cellGet {α : Type} (k : Nat) : List (Nat × α) → Option α
  | [] => none
  | (j, a) :: rest => if k = j then some a else cellGet k rest

/-- The table with `a` at `k`. -/
def cellSet {α : Type} (k : Nat) (a : α) : List (Nat × α) → List (Nat × α)
  | [] => [(k, a)]
  | (j, b) :: rest =>
    if k < j then (k, a) :: (j, b) :: rest
    else if k = j then (k, a) :: rest
    else (j, b) :: cellSet k a rest

/-- The table with `k` erased. -/
def cellErase {α : Type} (k : Nat) : List (Nat × α) → List (Nat × α)
  | [] => []
  | (j, b) :: rest => if k = j then rest else (j, b) :: cellErase k rest

/-- Every key of the table is above `k`, and the keys rise strictly. -/
def risingFrom {α : Type} (k : Nat) : List (Nat × α) → Bool
  | [] => true
  | (j, _) :: rest => decide (k < j) && risingFrom j rest

/-- The canonical form: keys strictly rising. -/
def rising {α : Type} : List (Nat × α) → Bool
  | [] => true
  | (j, _) :: rest => risingFrom j rest

/-- Every key is below `n`. -/
def keysBelow {α : Type} (n : Nat) (l : List (Nat × α)) : Bool := l.all (fun e => decide (e.1 < n))

/-- A rising list with `k` inserted. -/
def insertRising (k : Nat) : List Nat → List Nat
  | [] => [k]
  | j :: rest => if k < j then k :: j :: rest else if k = j then j :: rest else j :: insertRising k rest

/-! ## Records -/

/-- The origin of a record (R138). -/
def Body.origin : Body → Option Nat
  | .slot _ o _ => o
  | .ceiling _ _ _ o => o
  | .floor _ _ _ o => o
  | .lifecycle _ _ o => o
  | _ => none

/-- The key of a record (R141): records of one key say the same thing, and the newest of them counts. ARM, STEP and
COMMIT_BEGIN have keys too, so that of an original and its copy the newer counts (R151). -/
inductive RecordKey where
  | slot (slot : Fin 24)
  | counter (slot : Fin 24) (generation : Nat)
  | time
  | lifecycle
  | step (sequence index : Nat)
  | arm (sequence : Nat)
  | commitBegin (sequence : Nat)
  | disarm (sequence : Nat)
  | commitEnd (sequence : Nat)
  deriving DecidableEq, Repr

/-- The key of a record (R141). DEDUCED (log 43): a CEILING and a FLOOR of one slot and generation share one key, as R141's words and
its bound of 107 live records have it, so of a slot redefined with the same generation the newer of the two alone is live. -/
def Body.key : Body → RecordKey
  | .slot i _ _ => .slot i
  | .ceiling i g _ _ => .counter i g
  | .floor i g _ _ => .counter i g
  | .time _ => .time
  | .step q s => .step q s.index
  | .arm q .. => .arm q
  | .disarm q => .disarm q
  | .commitBegin q _ => .commitBegin q
  | .commitEnd q => .commitEnd q
  | .lifecycle .. => .lifecycle

/-- Whether a record is one of the open commit's records (R141); every other record is a base record. -/
def Body.ofCommit (opened : Option Nat) (b : Body) : Bool := b.origin.isSome && decide (b.origin = opened)

/-- Whether a SLOT record's contents name a generation as CURRENT or PRIOR (R141). -/
def SlotMeta.names (m : SlotMeta) (g : Nat) : Bool :=
  (match m.current with | some c => decide (c.generation = g) | none => false) ||
  (match m.prior with | some c => decide (c.generation = g) | none => false)

/-- Whether a record is the CEILING or FLOOR of a generation of slot `i` that the contents `m` do not name (R147). -/
def Body.unnamedBy (i : Fin 24) (m : SlotMeta) : Body → Bool
  | .ceiling j g _ _ => decide (j = i) && !m.names g
  | .floor j g _ _ => decide (j = i) && !m.names g
  | _ => false

/-- The SLOT metadata of a slot's cells, as a SLOT record carries them (R114, R138). -/
def SlotMeta.of (role : Role) (user notify : PortSet) (policy : Option Policy) (current : Option Current)
    (prior : Option Prior) : SlotMeta :=
  { role := role, userMap := user, notifyMap := notify, policy := policy
    current := current.map fun c =>
      ⟨c.generation, c.activation, c.lifetime,
        match c.counters with | .issue _ _ limit => some limit | .floor _ _ => none, c.bank⟩
    prior := prior.map fun c => ⟨c.generation, c.activation, c.graceEnd, c.bank⟩ }

/-! ## The ring while the part runs -/

/-- The ring position after `p` (R137). -/
def nextPosition (p : Nat) : Nat := if p = 511 then 0 else p + 1

/-- The lap count when the write position leaves `p` for the next (R139). -/
def nextLap (p : Nat) (lap : BitVec 8) : BitVec 8 := if p = 511 then lap + 1 else lap

/-- Whether the stored check value agrees with the value computed from the other bytes; only then is it a record (R137, R139). -/
def Record.valid (r : Record) : Bool := decide (r.check = Config.recordCheck r.lap r.body)

/-- The record that a ring position holds, where its check value agrees (R139). -/
def RingCell.valid : RingCell → Option Record
  | .record r => if r.valid then some r else none
  | .spoiled => none

/-- The record at a ring position; none where it is erased or its check value disagrees (R137, R139). -/
def Journal.recordAt (j : Journal) (p : Nat) : Option Record := (cellGet p j.ring).bind RingCell.valid

/-- Whether a position holds a live record, by the live map (R142). -/
def Journal.isLive (j : Journal) (p : Nat) : Bool := j.live.contains p

/-- The live records, with their positions. -/
def Journal.liveBodies (j : Journal) : List (Nat × Body) :=
  j.live.filterMap fun p => (j.recordAt p).map fun r => (p, r.body)

/-- The sequence of the open commit: that of the live COMMIT_BEGIN (R141). -/
def Journal.openCommit (j : Journal) : Option Nat :=
  j.liveBodies.findSome? fun e => match e.2 with | .commitBegin q _ => some q | _ => none

/-- The contents of the live base SLOT record of a slot: the slot's newest SLOT record outside an open commit (R141, R176). -/
def Journal.baseSlot (j : Journal) (i : Fin 24) : Option SlotMeta :=
  j.liveBodies.findSome? fun e =>
    match e.2 with
    | .slot k o m => if k = i ∧ ¬ (Body.slot k o m).ofCommit j.openCommit then some m else none
    | _ => none

/-- The live map without the records that `drop` picks. -/
def Journal.without (j : Journal) (drop : Body → Bool) : List Nat :=
  j.live.filter fun p => match j.recordAt p with | some r => !drop r.body | none => true

/-- Whether a base CEILING or FLOOR is of a generation that the live base SLOT of its slot names (R141); true of every other
record. -/
def Journal.namedByBase (j : Journal) : Body → Bool
  | .ceiling i g _ _ => (j.baseSlot i).any (·.names g)
  | .floor i g _ _ => (j.baseSlot i).any (·.names g)
  | _ => true

/-- The live map when the record `b`, at position `p`, succeeds (R147). `keep` is false where the record itself is not live: a
STEP whose batch has ended (R145), and the FLOOR of a PRIOR that has been removed (R55). -/
def Journal.liveAfter (j : Journal) (p : Nat) (b : Body) (keep : Bool) : List Nat :=
  let opened := j.openCommit
  match b with
  | .disarm q => j.without fun x =>
      match x with
      | .arm r .. => decide (r = q)
      | .step r _ => decide (r = q)
      | _ => false
  | .commitEnd q =>
    let commits := (j.liveBodies.map Prod.snd).filter fun y => y.ofCommit (some q)
    j.without fun x =>
      match x with
      | .arm r .. => decide (r = q)
      | .step r _ => decide (r = q)
      | .commitBegin r _ => decide (r = q)
      | _ => !x.ofCommit (some q) &&
          (commits.any (fun y => decide (y.key = x.key)) ||
           commits.any (fun y => match y with | .slot i _ m => x.unnamedBy i m | _ => false))
  | .commitBegin .. => insertRising p j.live
  | .arm .. => insertRising p j.live
  | .step .. => if keep then insertRising p j.live else j.live
  | _ =>
    let mine := b.ofCommit opened
    let rest := j.without fun x =>
      (decide (x.ofCommit opened = mine) && decide (x.key = b.key)) ||
      (!mine && !x.ofCommit opened && (match b with | .slot i _ m => x.unnamedBy i m | _ => false))
    if mine || (keep && j.namedByBase b) then insertRising p rest else rest

/-- The journal with the write position moved to the next position. -/
def Journal.advance (j : Journal) : Journal :=
  { j with writePosition := nextPosition j.writePosition, lap := nextLap j.writePosition j.lap }

/-- A record of the present lap at the write position. -/
def Journal.put (j : Journal) (b : Body) : Journal :=
  { j with ring := cellSet j.writePosition (.record (.made j.lap b)) j.ring }

/-- The write position spoiled (R148). -/
def Journal.spoil (j : Journal) : Journal :=
  { j with ring := cellSet j.writePosition .spoiled j.ring }

/-- The live record that must be copied before an append can write at the write position (R146, step 1). -/
def Journal.toCopy (j : Journal) : Option Record :=
  if j.isLive (nextPosition j.writePosition) then j.recordAt (nextPosition j.writePosition) else none

/-- The success of an append of `b` at the write position (R146 step 2, R147). -/
def Journal.appended (j : Journal) (b : Body) (keep : Bool) : Journal :=
  Journal.advance { j.put b with live := j.liveAfter j.writePosition b keep }

/-- The success of the copy of `r` from the next position (R146 step 1, R147): the copy is live, the original stale. -/
def Journal.copied (j : Journal) (r : Record) : Journal :=
  Journal.advance { j.put r.body with
    live := insertRising j.writePosition (j.live.filter fun p => p ≠ nextPosition j.writePosition) }

/-- The write position moved past each position that holds a live record (R148); 512 positions bound the walk. -/
def Journal.stepOver : Nat → Journal → Journal
  | 0, j => j
  | n + 1, j => if j.isLive j.writePosition then Journal.stepOver n j.advance else j

/-- The first failure of an append or of its copy (R148). A failed copy leaves its original where it is and moves the write
position past it, and past each further live record. -/
def Journal.appendFailed (j : Journal) : Journal :=
  match j.toCopy with
  | none => j.spoil.advance
  | some _ => Journal.stepOver 512 j.spoil.advance.advance

/-! ## Banks (R13, R140) -/

/-- The number of a slot's bank (R13). -/
def bankNumber (slot : Fin 24) (bank : Fin 3) : Nat := 3 * slot.val + bank.val

/-- What a bank holds; none where it is erased. -/
def Journal.bank (j : Journal) (slot : Fin 24) (bank : Fin 3) : Option BankCell := cellGet (bankNumber slot bank) j.banks

/-- Whether an image is valid for a cell of a slot and generation (R140): it passes its check value and names both. -/
def BankCell.validFor (slot : Fin 24) (generation : Nat) : BankCell → Bool
  | .image i g key check => decide (check = Config.imageCheck i.val g key) && decide (i = slot) && decide (g = generation)
  | .spoiled => false

/-- Whether a bank holds a valid image for a slot and generation (R140). -/
def Journal.validImage (j : Journal) (slot : Fin 24) (bank : Fin 3) (generation : Nat) : Bool :=
  (j.bank slot bank).any (·.validFor slot generation)

/-- The key that the key engine reads from a bank (R14). -/
def Journal.keyAt (j : Journal) (slot : Fin 24) (bank : Fin 3) : Key :=
  match j.bank slot bank with
  | some (.image _ _ k _) => k
  | _ => Config.unreadableKey (bankNumber slot bank)

/-- The bank after a bank write (R140). -/
def Journal.writeBank (j : Journal) (slot : Fin 24) (bank : Fin 3) (generation : Nat) (key : Key) : Journal :=
  { j with banks := cellSet (bankNumber slot bank) (.made slot generation key) j.banks }

/-- The bank after a bank erase (R140). -/
def Journal.eraseBank (j : Journal) (slot : Fin 24) (bank : Fin 3) : Journal :=
  { j with banks := cellErase (bankNumber slot bank) j.banks }

/-- A bank that holds no valid image, after a failed or torn write (R149, R151). -/
def Journal.spoilBank (j : Journal) (slot : Fin 24) (bank : Fin 3) : Journal :=
  { j with banks := cellSet (bankNumber slot bank) .spoiled j.banks }

/-- The store after an abort (R151): the write being made is left whole, torn or not begun. A copy being made for an append
is a write of its own. Model's reading: a write that was not begun leaves its position or bank as it stood, with the stale record or the
old image it held, where the table of R151 speaks of no record and no valid image (log entry 39). -/
def Journal.cut (c : Cut) (j : Journal) : Journal :=
  match j.queue with
  | [] => j
  | e :: _ =>
    match e.write, c with
    | _, .notBegun => j
    | .append b, .whole => (match j.toCopy with | some r => j.put r.body | none => j.put b)
    | .append _, .torn => j.spoil
    | .bankWrite i k g key, .whole => j.writeBank i k g key
    | .bankWrite i k _ _, .torn => j.spoilBank i k
    | .bankErase i k, .whole => j.eraseBank i k
    | .bankErase i k, .torn => j.spoilBank i k

/-! ## The scan (R139, R141, R152) -/

/-- A valid record with its position. -/
abbrev Placed := Nat × Record

/-- The valid records of the ring (R139), in rising position. -/
def validRecords (ring : List (Nat × RingCell)) : List Placed :=
  ring.filterMap fun e => e.2.valid.map fun r => (e.1, r)

/-- The lap values that valid records carry and whose successor none carries (R139). -/
def newestLaps (recs : List Placed) : List (BitVec 8) :=
  let laps := recs.map fun e => e.2.lap
  laps.eraseDups.filter fun l => !laps.contains (l + 1)

/-- The newest lap (R139). Where more than one lap fits R139's definition the manual does not say which is meant, and the
choice among them is free (log entry 8). -/
def newestLap (recs : List Placed) : BitVec 8 :=
  match newestLaps recs with
  | [] => 0
  | [l] => l
  | ls => ls.getD (Config.newestLapChoice ls % ls.length) 0

/-- The order of records (R139) as a number: higher is newer. -/
def rank (newest : BitVec 8) (e : Placed) : Nat := (255 - (newest - e.2.lap).toNat) * 512 + e.1

/-- The newest of the records that `is` picks. -/
def latest (newest : BitVec 8) (is : Body → Bool) (recs : List Placed) : Option Placed :=
  recs.foldl (fun best e =>
    if is e.2.body then
      match best with
      | none => some e
      | some b => if rank newest b < rank newest e then some e else best
    else best) none

/-- Whether a record that `is` picks is newer than `e`. -/
def anyNewer (newest : BitVec 8) (is : Body → Bool) (e : Placed) (recs : List Placed) : Bool :=
  recs.any fun x => is x.2.body && decide (rank newest e < rank newest x)

/-- The COMMIT_BEGIN of the open commit: one with no newer COMMIT_END of its sequence (R153). -/
def openBegin (newest : BitVec 8) (recs : List Placed) : Option (Nat × Nat) :=
  match latest newest (fun b => match b with
      | .commitBegin q _ => recs.any fun x =>
          (match x.2.body with | .commitBegin r _ => decide (r = q) | _ => false) &&
          !anyNewer newest (fun y => decide (y = .commitEnd q)) x recs
      | _ => false) recs with
  | some (_, ⟨_, .commitBegin q tc, _⟩) => some (q, tc)
  | _ => none

/-- Whether `e` is an ARM record with no newer DISARM or COMMIT_END of its sequence (R141, R157). -/
def armStands (newest : BitVec 8) (recs : List Placed) (e : Placed) : Bool :=
  match e.2.body with
  | .arm q .. => !anyNewer newest (fun y => decide (y = .disarm q) || decide (y = .commitEnd q)) e recs
  | _ => false

/-- Whether `e` is the newest of the records that share its key and are, like it, of the open commit or base records. -/
def newestOfKey (newest : BitVec 8) (opened : Option Nat) (recs : List Placed) (e : Placed) : Bool :=
  !anyNewer newest (fun y => decide (y.key = e.2.body.key) &&
      decide (y.ofCommit opened = e.2.body.ofCommit opened)) e recs

/-- The newest base SLOT record of a slot (R153). -/
def latestSlot (newest : BitVec 8) (opened : Option Nat) (recs : List Placed) (i : Fin 24) : Option SlotMeta :=
  match latest newest (fun b => decide (b.key = .slot i) && !b.ofCommit opened) recs with
  | some (_, ⟨_, .slot _ _ m, _⟩) => some m
  | _ => none

/-- Whether a record is live at the scan (R141, R152). -/
def liveAtScan (newest : BitVec 8) (opened : Option Nat) (recs : List Placed) (e : Placed) : Bool :=
  newestOfKey newest opened recs e &&
  match e.2.body with
  | .slot .. => true
  | .ceiling i g _ _ => e.2.body.ofCommit opened || (latestSlot newest opened recs i).any (·.names g)
  | .floor i g _ _ => e.2.body.ofCommit opened || (latestSlot newest opened recs i).any (·.names g)
  | .time _ => true
  | .lifecycle .. => true
  | .arm .. => armStands newest recs e
  | .step q _ => recs.any fun x => (match x.2.body with | .arm r .. => decide (r = q) | _ => false) && armStands newest recs x
  | .commitBegin q _ => decide (opened = some q)
  | .disarm _ => false
  | .commitEnd _ => false

end Sys2Proof.Machine
end

