-- ==== Sys2Proof/Machine/Operands.lean ====
section
/-! DEFINITION. The operand forms: the payload layouts of chapter 11 and the frame checks of R202. A layout that does not
fit answers BAD_FIELD; where the length fits, the fields are checked in payload order, so that a slot byte above 23 answers
NO_SLOT only if no field before it fails. A field that is required and absent fails at its own place (log entry 10). -/

namespace Sys2Proof.Machine

/-- A frame that passes R202 with the fields it carries, or the refusal. -/
abbrev Checked (α : Type) := Except Status α

/-- BAD_FIELD unless the condition holds. -/
def need {α : Type} (ok : Bool) (then_ : Checked α) : Checked α :=
  if ok then then_ else .error .badField

/-- Bytes of the payload of a MAKE_TAG before its message: 4 with an expected generation, 2 without (chapter 11). -/
def makeTagHead (payload : List Byte) : Nat :=
  if (payload.getD 1 0).getLsbD 0 then 4 else 2

/-- The message of a MAKE_TAG frame. -/
def makeTagMessage (payload : List Byte) : List Byte := payload.drop (makeTagHead payload)

/-- MAKE_TAG: slot, flags (bit 0 expected generation), expected generation, message of 0 to 192 bytes. -/
def makeTagFrame (payload : List Byte) : Checked (Nat × Option Nat) :=
  let k := payload.length
  let flags := payload.getD 1 0
  let head := makeTagHead payload
  need (decide (2 ≤ k) && decide (head ≤ k) && decide (k ≤ head + 192)) <|
  need (decide (flags.toNat < 2)) <|
  if flags.getLsbD 0 then
    need (decide (fieldAt 2 2 payload ≠ 0)) (.ok (fieldAt 0 1 payload, some (fieldAt 2 2 payload)))
  else .ok (fieldAt 0 1 payload, none)

/-- The message of a CHECK_TAG frame. -/
def checkTagMessage (payload : List Byte) : List Byte := payload.drop 15

/-- CHECK_TAG: slot, generation, counter, tag, message of 0 to 192 bytes. -/
def checkTagFrame (payload : List Byte) : Checked (Nat × Nat × Nat × Tag) :=
  let k := payload.length
  need (decide (15 ≤ k) && decide (k ≤ 15 + 192)) <|
  need (decide (fieldAt 1 2 payload ≠ 0)) <|
  .ok (fieldAt 0 1 payload, fieldAt 1 2 payload, fieldAt 3 4 payload, BitVec.ofNat 64 (fieldAt 7 8 payload))

/-- PIN and UNPIN: the slot byte, which the key engine checks (R202). -/
def pinFrame (payload : List Byte) : Checked Nat :=
  need (decide (payload.length = 1)) (.ok (fieldAt 0 1 payload))

/-- A slot index that R202 checks: NO_SLOT above 23. -/
def checkedSlot (n : Nat) : Checked (Fin 24) :=
  if h : n < 24 then .ok ⟨n, h⟩ else .error .noSlot

/-- SLOT_STATUS: the slot byte. -/
def slotStatusFrame (payload : List Byte) : Checked (Fin 24) :=
  need (decide (payload.length = 1)) (checkedSlot (fieldAt 0 1 payload))

/-- PART_STATUS, READ_DEMAND, BATCH_RESULT: no payload. -/
def emptyFrame (payload : List Byte) : Checked Unit :=
  need (decide (payload.length = 0)) (.ok ())

/-- BATCH_OPEN: sequence 1 to LIMIT, step count 1 to 8, activation delay D (R74). -/
def batchOpenFrame (payload : List Byte) : Checked Header :=
  need (decide (payload.length = 7)) <|
  need (decide (fieldAt 0 4 payload ≠ 0)) <|
  need (decide (1 ≤ fieldAt 4 1 payload) && decide (fieldAt 4 1 payload ≤ 8)) <|
  .ok { sequence := fieldAt 0 4 payload, count := some (fieldAt 4 1 payload),
        delay := some (fieldAt 5 2 payload), bytes := payload }

/-- BATCH_CLOSE: the authenticator (R77). -/
def batchCloseFrame (payload : List Byte) : Checked Tag :=
  need (decide (payload.length = 8)) (.ok (BitVec.ofNat 64 (fieldAt 0 8 payload)))

/-- ACTIVATE and CANCEL: a batch sequence, 1 to LIMIT. -/
def sequenceFrame (payload : List Byte) : Checked Nat :=
  need (decide (payload.length = 4)) <|
  need (decide (fieldAt 0 4 payload ≠ 0)) (.ok (fieldAt 0 4 payload))

/-! ## Step records (R75, chapter 11) -/

/-- A policy block of 9 bytes: S at least 1, continuation 00h or 01h, every other value in range (R7). -/
def policyBlock (bs : List Byte) : Option Policy :=
  if bs.length ≠ 9 then none
  else if fieldAt 0 2 bs = 0 then none
  else
    let p : Continuation → Policy := fun c =>
      ⟨fieldAt 0 2 bs, fieldAt 2 1 bs, fieldAt 3 2 bs, fieldAt 5 2 bs, fieldAt 7 1 bs, c⟩
    if fieldAt 8 1 bs = 0 then some (p .carryOn)
    else if fieldAt 8 1 bs = 1 then some (p .restart)
    else none

/-- A define part of 3 bytes: role ISSUE or ACCEPT, user map not {}, notify map (R4, R75). -/
def defineBlock (bs : List Byte) : Option DefinePart :=
  match bs with
  | [r, u, n] =>
    match PortSet.decode u, PortSet.decode n with
    | some user, some notify =>
      if user = PortSet.none then none
      else if r = Role.issue.code then some ⟨.issue, user, notify⟩
      else if r = Role.accept.code then some ⟨.accept, user, notify⟩
      else none
    | _, _ => none
  | _ => none

/-- A 3-byte number, 1 to 16,777,215 (a lifetime or a budget). -/
def numberBlock (bs : List Byte) : Option Nat :=
  if bs.length = 3 ∧ beNat bs ≠ 0 then some (beNat bs) else none

/-- An optional field of `len` bytes: absent and of no bytes where its flag is clear (R203). Answers the field, or none where
it is present and fails, and the bytes after it. -/
def optionalBlock {α : Type} (present : Bool) (len : Nat) (read : List Byte → Option α) (bs : List Byte) :
    Option (Option α) × List Byte :=
  if present then ((read (bs.take len)).map some, bs.drop len) else (some none, bs)

/-- A byte that is a port map. -/
def portSetBlock (bs : List Byte) : Option PortSet :=
  match bs with
  | [b] => PortSet.decode b
  | _ => none

/-- A user map that is not {}. -/
def userMapBlock (bs : List Byte) : Option PortSet :=
  match portSetBlock bs with
  | some w => if w = PortSet.none then none else some w
  | none => none

/-- The part of an INSTALL step after its slot byte: generation, blob, lifetime, budget, define part, policy part. A define
part always comes with a policy part (R4). -/
def installPart (slot : Fin 24) (flags : Byte) (bs : List Byte) : Option StepPart :=
  let gen := fieldAt 0 2 bs
  let blob : Blob := BitVec.ofNat 192 (fieldAt 2 24 bs)
  let l := optionalBlock (flags.getLsbD 2) 3 numberBlock (bs.drop 26)
  let b := optionalBlock (flags.getLsbD 3) 3 numberBlock l.2
  let d := optionalBlock (flags.getLsbD 4) 3 defineBlock b.2
  let p := optionalBlock (flags.getLsbD 5) 9 policyBlock d.2
  if gen = 0 then none
  else
    match l.1, b.1, d.1, p.1 with
    | some life, some budget, some define, some policy =>
      if define.isSome && policy.isNone then none
      else some (.install slot gen blob life budget define policy)
    | _, _, _, _ => none

/-- The part of a POLICY step after its slot byte: policy, user map not {}, notify map. -/
def policyPart (slot : Fin 24) (flags : Byte) (bs : List Byte) : Option StepPart :=
  let p := optionalBlock (flags.getLsbD 5) 9 policyBlock bs
  let u := optionalBlock (flags.getLsbD 6) 1 userMapBlock p.2
  let n := optionalBlock (flags.getLsbD 7) 1 portSetBlock u.2
  match p.1, u.1, n.1 with
  | some (some policy), some user, some notify => some (.policy slot policy user notify)
  | _, _, _ => none

/-- The part of a LIFECYCLE step: target OPERATIONAL with a tick period code 0 to 7, or RETIRED without one. -/
def lifecyclePart (bs : List Byte) : Option StepPart :=
  match bs with
  | [t, c] => if t = LifeCycle.operational.code ∧ c.toNat ≤ 7 then some (.lifecycle .operational (some c.toNat)) else none
  | [t] => if t = LifeCycle.retired.code then some (.lifecycle .retired none) else none
  | _ => none

/-- The length of a BATCH_STEP payload as the layout of its kind and its presence flags give it. -/
def stepLength (kind flags : Byte) (rest : List Byte) : Option Nat :=
  let bit (i n : Nat) : Nat := if flags.getLsbD i then n else 0
  let head := 3 + bit 0 1
  match kind.toNat with
  | 1 => some (head + 26 + bit 2 3 + bit 3 3 + bit 4 3 + bit 5 9)
  | 2 => some (head + bit 5 9 + bit 6 1 + bit 7 1)
  | 3 => some head
  | 4 => some head
  | 5 => some (head + (if rest.headD 0 = LifeCycle.operational.code then 2 else 1))
  | _ => none

/-- Whether a step kind allows each presence flag that is set. -/
def stepFlagsAllowed (kind flags : Byte) : Bool :=
  let clear (is : List Nat) : Bool := is.all (fun i => !flags.getLsbD i)
  match kind.toNat with
  | 1 => clear [6, 7]
  | 2 => clear [2, 3, 4]
  | 3 => clear [2, 3, 4, 5, 6, 7]
  | 4 => clear [2, 3, 4, 5, 6, 7]
  | 5 => clear [0, 2, 3, 4, 5, 6, 7]
  | _ => false

/-- The slot and part of a step record, its length, index, kind and flags having passed. -/
def stepPart (kind flags : Byte) (rest : List Byte) : Checked StepPart :=
  if kind.toNat = 5 then
    match lifecyclePart rest with
    | some part => .ok part
    | none => .error .badField
  else
    need (flags.getLsbD 0) <|
    match checkedSlot (fieldAt 0 1 rest) with
    | .error e => .error e
    | .ok slot =>
      let part : Option StepPart :=
        match kind.toNat with
        | 1 => installPart slot flags (rest.drop 1)
        | 2 => policyPart slot flags (rest.drop 1)
        | 3 => some (.clear slot)
        | 4 => some (.endGrace slot)
        | _ => none
      match part with
      | some part => .ok part
      | none => .error .badField

/-- BATCH_STEP: a step record (R75, R202). Bit 1 of the flags is the required flag. -/
def batchStepFrame (payload : List Byte) : Checked StepRecord :=
  match payload with
  | index :: kind :: flags :: rest =>
    need (decide (stepLength kind flags rest = some payload.length)) <|
    need (decide (index.toNat ≤ 7)) <|
    need (stepFlagsAllowed kind flags) <|
    match stepPart kind flags rest with
    | .ok part => .ok ⟨index.toNat, flags.getLsbD 1, part, payload⟩
    | .error e => .error e
  | _ => .error .badField

/-! ## What a step names -/

/-- The slot a step names; LIFECYCLE names none. -/
def StepPart.slot : StepPart → Option (Fin 24)
  | .install slot .. => some slot
  | .policy slot .. => some slot
  | .clear slot => some slot
  | .endGrace slot => some slot
  | .lifecycle .. => none

/-- The slot an applied step names. -/
def AppliedPart.slot : AppliedPart → Option (Fin 24)
  | .install slot .. => some slot
  | .policy slot .. => some slot
  | .clear slot => some slot
  | .endGrace slot => some slot
  | .lifecycle .. => none

/-- Whether a step is of kind LIFECYCLE. -/
def StepPart.isLifecycle : StepPart → Bool
  | .lifecycle .. => true
  | _ => false

/-- A step in the form the journal keeps: `bank` is the bank of its NEXT cell, used by INSTALL alone (R88). -/
def StepRecord.applied (r : StepRecord) (bank : Fin 24 → Fin 3) : AppliedStep :=
  ⟨r.index,
    match r.part with
    | .install slot gen _ life budget define policy => .install slot gen life budget define policy (bank slot)
    | .policy slot policy user notify => .policy slot policy user notify
    | .clear slot => .clear slot
    | .endGrace slot => .endGrace slot
    | .lifecycle target code => .lifecycle target code⟩

end Sys2Proof.Machine
end

