-- ==== Sys2Proof/Machine/Ops.lean ====
section
/-! DEFINITION. The shared operations on the state: reading and writing slots, ports and queues, raising demands, completing a
request, handing a write over. -/

namespace Sys2Proof.Machine

/-! ## Parts of the state -/

/-- The port record of a port (R188). -/
def State.port (s : State) : Port → PortRecord
  | .M => s.portM
  | .L => s.portL

/-- The state with a port's record replaced. -/
def State.setPort (s : State) (p : Port) (r : PortRecord) : State :=
  match p with
  | .M => { s with portM := r }
  | .L => { s with portL := r }

/-- A slot record of the key table (R1). -/
def State.slot (s : State) (i : Fin 24) : Slot := s.slots[i.val]

/-- The state with a slot record replaced. -/
def State.setSlot (s : State) (i : Fin 24) (c : Slot) : State := { s with slots := s.slots.set i.val c i.isLt }

/-- The demand queue of a port (R178). -/
def State.queue (s : State) : Port → List Demand
  | .M => s.queueM
  | .L => s.queueL

/-- The state with a port's demand queue replaced. -/
def State.setQueue (s : State) (p : Port) (q : List Demand) : State :=
  match p with
  | .M => { s with queueM := q }
  | .L => { s with queueL := q }

/-- The attention line of a port (R184): asserted while its queue holds an entry. -/
def State.attention (s : State) (p : Port) : Bool := !(s.queue p).isEmpty

/-- Whether a port holds SCL low (R189, R197): in STRETCH alone. -/
def State.holdsClock (s : State) (p : Port) : Bool := decide ((s.port p).framing = .stretch)

/-- Whether the request in flight at a port waits in the arbiter as its port request (R63). -/
def Arbiter.waiting (a : Arbiter) : Port → Bool
  | .M => a.waitM
  | .L => a.waitL

/-- The arbiter with a port's request present or absent. -/
def Arbiter.setWaiting (a : Arbiter) (p : Port) (w : Bool) : Arbiter :=
  match p with
  | .M => { a with waitM := w }
  | .L => { a with waitL := w }

/-- Part time T (R121). -/
def State.now (s : State) : Nat := s.time.t

/-- Whether a port acknowledges its address (R162): in RUN, and in FAULT with the warning released. -/
def State.acknowledges (s : State) : Bool :=
  decide (s.supply.run = .run) || (decide (s.supply.run = .fault) && !s.supply.warning)

/-! ## Demands (R178 to R181) -/

/-- Whether two demands have the same kind and slot (R178). -/
def Demand.same (d e : Demand) : Bool := decide (d.kind = e.kind) && decide (d.slot = e.slot)

/-- A queue after a demand arrives at it (R180, R181). -/
def arrive (q : List Demand) (d : Demand) : List Demand :=
  if q.any (fun e => decide (e.kind = .queueFull)) then q
  else if q.any d.same then
    q.map fun e => if d.same e then { e with generation := d.generation, sequence := d.sequence, stamp := d.stamp } else e
  else if q.length ≤ 14 then q ++ [d]
  else q ++ [⟨.queueFull, none, none, none, d.stamp⟩]

/-- A demand handed to the queues of a set of ports, queue M first (R179). -/
def State.raise (s : State) (w : PortSet) (d : Demand) : State :=
  let s := if w.m then { s with queueM := arrive s.queueM d } else s
  if w.l then { s with queueL := arrive s.queueL d } else s

/-- A slot demand of a generation, stamped T, routed by the slot's notify map (R6, R179). -/
def State.raiseSlot (s : State) (kind : DemandKind) (i : Fin 24) (generation : Nat) : State :=
  s.raise (s.slot i).notifyMap ⟨kind, some i, some generation, none, s.now⟩

/-- A batch demand, stamped T, to both queues (R179). -/
def State.raiseBatch (s : State) (kind : DemandKind) (sequence : Nat) : State :=
  s.raise .both ⟨kind, none, none, some sequence, s.now⟩

/-! ## Completion of a request (R195, R197) -/

/-- The port record when a reply is written: the request in flight becomes none, a refusal is recorded, and a stretched read
is released and sends the new reply (R195, R197). -/
def PortRecord.completed (r : PortRecord) (st : Status) (payload : List Byte) : PortRecord :=
  let r := { r with request := none, reply := .reply st payload,
                    lastRefusal := if st.isRefusal then st else r.lastRefusal }
  if r.framing = .stretch then
    { r with framing := .read, stretchTimer := .stopped, busTimer := .running, sending := replyBytes st payload }
  else r

/-- The completion of the request in flight at a port. -/
def State.complete (s : State) (p : Port) (st : Status) (payload : List Byte) : State :=
  s.setPort p ((s.port p).completed st payload)

/-- A refusal: no payload (R203). -/
def State.refuse (s : State) (p : Port) (st : Status) : State := s.complete p st []

/-! ## Handing a write over (R143, R150) -/

/-- What becomes of a write at the event it is handed over. -/
inductive Handed where
  | queued
  | placed
  | faulted
  deriving DecidableEq, Repr

/-- Where a write handed over now goes (R143): the queue while it holds fewer than 8 entries, the place list otherwise. In FAULT
it is told FAULT at once (R150), and so it is in a start-up whose fault mark is set (R170). -/
def State.handing (s : State) : Handed :=
  if s.supply.run = .fault ∨ (s.supply.run = .starting ∧ s.supply.faultMark = true) then .faulted
  else if s.journal.queue.length < 8 then .queued
  else .placed

/-- A write handed over to the journal controller. -/
def State.handOver (s : State) (w : Write) (r : Requester) : State :=
  match s.handing with
  | .queued => { s with journal := { s.journal with queue := s.journal.queue ++ [⟨w, r⟩] } }
  | .placed => { s with journal := { s.journal with place := s.journal.place ++ [⟨w, r⟩] } }
  | .faulted => s

/-- The queue and the place list with each freed place of the queue given to the oldest write of the place list (R144, R145). -/
def refill : List Entry → List Entry → List Entry × List Entry
  | q, [] => (q, [])
  | q, e :: place => if q.length < 8 then refill (q ++ [e]) place else (q, e :: place)

/-- The journal with its freed places filled. -/
def Journal.refilled (j : Journal) : Journal :=
  { j with queue := (refill j.queue j.place).1, place := (refill j.queue j.place).2 }

/-! ## The floor of slot 0, the named slots, the batch port -/

/-- F0, the accept floor of slot 0's CURRENT cell; absent while slot 0 holds none (R43, R201). -/
def State.f0 (s : State) : Option Nat :=
  match (s.slot 0).current with
  | some c => (match c.counters with | .floor f _ => some f | .issue .. => none)
  | none => none

/-- The slots named by the batch in ARMED or COMMITTING: those of its applied steps, in index order (R88). -/
def Renewal.named (r : Renewal) : List (Fin 24) := r.applied.filterMap fun a => a.part.slot

/-- The batch sequence of the batch in the engine. -/
def Renewal.sequence (r : Renewal) : Nat :=
  match r.header with
  | some h => h.sequence
  | none => 0

/-- The batch port (R73, R173); RETIRED has none. -/
def LifeCycle.batchPort : LifeCycle → Option Port
  | .factory => some .M
  | .operational => some .L
  | .retired => none

/-- Whether a pin stands on a slot the batch names (R106). -/
def State.namedPinned (s : State) : Bool := s.renewal.named.any fun i => (s.slot i).pin.isSome

/-- The commit start test (R105): with the flag set, no named slot pinned and the run state RUN, the table hold is requested,
unless it already is. -/
def State.commitStart (s : State) : State :=
  if s.renewal.state = .armed ∧ s.renewal.disarm = false ∧ s.renewal.activation = true ∧ s.namedPinned = false ∧
      s.supply.run = .run ∧ s.arbiter.hold = .none then
    { s with arbiter := { s.arbiter with hold := .requested } }
  else s

/-- The requests in flight that are in the key engine's charge (R47): taken, handed to the arbiter, and granted once. -/
def State.inCharge (s : State) (p : Port) : Bool :=
  match (s.port p).request with
  | some (.cancel _) => false
  | some _ => !s.arbiter.waiting p
  | none => false

/-- The port whose CANCEL waits for its DISARM or ARM record (R96). -/
def State.canceller (s : State) : Option Port :=
  match s.portM.request, s.portL.request with
  | some (.cancel _), _ => some .M
  | _, some (.cancel _) => some .L
  | _, _ => none

end Sys2Proof.Machine
end

