-- ==== Sys2Proof/Machine/Flags.lean ====
section
/-! DEFINITION. The conditions and marks of the key table: counters left and warned marks (R31, R41), deadlines (R131 to R134),
the drain condition (R164). A deadline that is an exact sum above LIMIT is never met, since T stops at LIMIT. -/

namespace Sys2Proof.Machine

/-! ## Warned marks -/

/-- The counter values left to a CURRENT cell: Lc − n, or LIMIT − F (R31, R41). -/
def Counters.left : Counters → Nat
  | .issue n _ limit => limit - n
  | .floor f _ => LIMIT - f

/-- Whether a CURRENT cell's counter is at its limit: n = Lc, or F = LIMIT (R9, R30, R40). -/
def Counters.atLimit : Counters → Bool
  | .issue n _ limit => decide (n = limit)
  | .floor f _ => decide (f = LIMIT)

/-- The values left are at or below Kw × S, and Kw is above 0 (R31, R41). -/
def Policy.low (p : Policy) (c : Current) : Bool :=
  decide (0 < p.warnStrides) && decide (c.counters.left ≤ p.warnStrides * p.stride)

/-- Whether COUNTER_LOW is due for a CURRENT cell under a policy (R31, R41). -/
def counterLowDue (p : Option Policy) (c : Current) : Bool := !c.warned && p.any (·.low c)

/-- The evaluation of a CURRENT cell for COUNTER_LOW at an issue, an acceptance or a floor completion: the demand is raised and
the mark set where it is due (R31, R41). -/
def State.evaluateLow (s : State) (i : Fin 24) : State :=
  match (s.slot i).current with
  | some c =>
    if counterLowDue (s.slot i).policy c then
      (s.setSlot i { s.slot i with current := some { c with warned := true } }).raiseSlot .counterLow i c.generation
    else s
  | none => s

/-- A LIVE CURRENT cell whose counter is at its limit becomes SPENT and its demand is raised (R30, R40). -/
def State.evaluateSpent (s : State) (i : Fin 24) : State :=
  match (s.slot i).current with
  | some c =>
    if c.state = .live ∧ c.counters.atLimit = true then
      (s.setSlot i { s.slot i with current := some { c with state := .spent } }).raiseSlot .spent i c.generation
    else s
  | none => s

/-! ## Deadlines -/

/-- T ≥ A + L, for a cell with a lifetime (R132). -/
def Current.past (c : Current) (t : Nat) : Bool := c.lifetime.any fun l => decide (c.activation + l ≤ t)

/-- Wl > 0 and T ≥ A + L − Wl, for a cell with a lifetime (R133). The difference may lie below 0. -/
def Current.inLifeWarning (c : Current) (p : Option Policy) (t : Nat) : Bool :=
  c.lifetime.any fun l => p.any fun q => decide (0 < q.lifeWarn) && decide (c.activation + l ≤ t + q.lifeWarn)

/-- Whether a cell's life warning falls due at T (R133): mark clear, not EXPIRED. -/
def Current.lifeWarningDue (c : Current) (p : Option Policy) (t : Nat) : Bool :=
  !c.lifeWarned && decide (c.state ≠ .expired) && c.inLifeWarning p t

/-- Whether a cell expires at T (R132): LIVE and past its lifetime. -/
def Current.expiryDue (c : Current) (t : Nat) : Bool := decide (c.state = .live) && c.past t

/-- The life warning of a slot (R133). -/
def State.lifeWarning (s : State) (i : Fin 24) : State :=
  match (s.slot i).current with
  | some c =>
    if c.lifeWarningDue (s.slot i).policy s.now then
      (s.setSlot i { s.slot i with current := some { c with lifeWarned := true } }).raiseSlot .lifeLow i c.generation
    else s
  | none => s

/-- The expiry of a slot's CURRENT cell (R132). -/
def State.expire (s : State) (i : Fin 24) : State :=
  match (s.slot i).current with
  | some c =>
    if c.expiryDue s.now then
      (s.setSlot i { s.slot i with current := some { c with state := .expired } }).raiseSlot .expired i c.generation
    else s
  | none => s

/-- The grace end of a slot's PRIOR cell (R134): the cell is removed and its bank is free; no demand is raised. -/
def State.endGrace (s : State) (i : Fin 24) : State :=
  match (s.slot i).prior with
  | some c => if c.graceEnd ≤ s.now then s.setSlot i { s.slot i with prior := none } else s
  | none => s

/-- The lapse of a slot's pin (R19): the pin is removed, PIN_LAPSED goes to the holder's queue whatever the notify map, and the
commit start test is made. -/
def State.lapsePin (s : State) (i : Fin 24) : State :=
  match (s.slot i).pin with
  | some pin =>
    if pin.pinEnd ≤ s.now then
      ((s.setSlot i { s.slot i with pin := none }).raise (.only pin.holder)
        ⟨.pinLapsed, some i, some pin.generation, none, s.now⟩).commitStart
    else s
  | none => s

/-- Whether the key table evaluates the deadlines of its cells: in every life-cycle state but RETIRED (R175), and in every run
state but STARTING, where no tick is taken (R124). -/
def State.evaluates (s : State) : Bool :=
  decide (s.supply.lifeCycle ≠ .retired) && decide (s.supply.run ≠ .starting)

/-- The deadlines of one slot, in the order of R131. -/
def State.slotDeadlines (s : State) (i : Fin 24) : State :=
  if s.evaluates then (((s.lifeWarning i).expire i).endGrace i).lapsePin i else s

/-- Scheduled activation (R104): an armed batch whose activation tick is reached has its flag set, and the commit start test is
made. -/
def State.scheduledActivation (s : State) : State :=
  match s.renewal.activationTick with
  | some a =>
    if s.renewal.state = .armed ∧ s.renewal.disarm = false ∧ s.renewal.activation = false ∧ a ≤ s.now ∧
        s.supply.run ≠ .starting then
      State.commitStart { s with renewal := { s.renewal with activation := true } }
    else s
  | none => s

/-- The deadlines of a new T (R131): the key table in slot order, then the renewal engine. -/
def State.deadlines (s : State) : State :=
  ((List.finRange 24).foldl State.slotDeadlines s).scheduledActivation

/-! ## The drain condition -/

/-- The drain condition (R164). An item of the RETIRED erase in service is an entry of the queue. -/
def State.drained (s : State) : Bool :=
  !s.arbiter.waitM && !s.arbiter.waitL && !s.inCharge .M && !s.inCharge .L && s.engine.isNone &&
  decide (s.renewal.state ≠ .checking) && decide (s.renewal.state ≠ .committing) && !s.renewal.disarm &&
  s.journal.queue.isEmpty && s.journal.place.isEmpty && s.time.checkpoint.isNone

/-- In FLUSH the drain condition, once it holds, makes the run state QUIESCENT (R164). -/
def State.drain (s : State) : State :=
  if s.supply.run = .flush ∧ s.drained = true then { s with supply := { s.supply with run := .quiescent } } else s

end Sys2Proof.Machine
end

