-- ==== Sys2Proof/Machine/Engine.lean ====
section
/-! DEFINITION. The key engine and the engine arbiter (chapter 3), and PIN and UNPIN (chapter 1): the checks of each port
operation at its grant, the slot write wait, the grants, and the events at which a tag has been computed. -/

namespace Sys2Proof.Machine

/-! ## Slot write waits (R54, R57) -/

/-- The slot of an index that a key command names, where the table has it (R1). -/
def slotIndex (n : Nat) : Option (Fin 24) := if h : n < 24 then some ⟨n, h⟩ else none

/-- An operation of a port joins the write wait of a slot, at the end of its waiters (R54). -/
def State.joinWait (s : State) (i : Fin 24) (w : WriteWait) (p : Port) : State :=
  s.setSlot i { s.slot i with wait := some { w with waiters := w.waiters ++ [p] } }

/-- The record that a write wait hands to the write queue. -/
def WaitRecord.body (i : Fin 24) : WaitRecord → Body
  | .ceiling g c => .ceiling i g c none
  | .floor g c _ => .floor i g c none

/-- An operation leaves the engine as the owner of a new write wait, its record handed over (R27, R38, R57). In FAULT it does
not leave to wait and is refused FAULT (R58). -/
def State.beginWait (s : State) (i : Fin 24) (p : Port) (r : WaitRecord) : State :=
  if s.handing = .faulted then s.refuse p .fault
  else (s.setSlot i { s.slot i with wait := some ⟨r, p, []⟩ }).handOver (.append (r.body i)) (.engine i)

/-! ## MAKE_TAG -/

/-- The nine checks of a MAKE_TAG, in order (R49): the refusal, or the slot with its CURRENT cell. -/
def State.makeTagChecks (s : State) (p : Port) (slot : Nat) (expected : Option Nat) :
    Except Status (Fin 24 × Current) :=
  if s.supply.lifeCycle = .retired then .error .retired
  else if s.supply.run = .fault then .error .fault
  else match slotIndex slot with
  | none => .error .noSlot
  | some i =>
    if (s.slot i).role ≠ .issue then .error .wrongRole
    else if (s.slot i).userMap.has p = false then .error .notUser
    else match (s.slot i).current with
    | none => .error .noKey
    | some c =>
      if expected.any (fun g => decide (g ≠ c.generation)) then .error .genMoved
      else if c.state = .expired then .error .expired
      else if c.state = .spent then .error .spent
      else .ok (i, c)

/-- The stride of a slot's policy (R7); 1 where it has none, which no slot with a cell is. -/
def Slot.stride (c : Slot) : Nat :=
  match c.policy with
  | some p => p.stride
  | none => 1

/-- The issue step (R26, R27, R50): within the ceiling n takes v, the demands of the issue are raised and the tag is computed;
above it the request reserves and waits. -/
def State.issueStep (s : State) (p : Port) (i : Fin 24) (c : Current) : State :=
  match c.counters with
  | .issue n ceiling limit =>
    if n + 1 ≤ ceiling then
      let s := s.setSlot i { s.slot i with current := some { c with counters := .issue (n + 1) ceiling limit } }
      { (s.evaluateLow i).evaluateSpent i with
        engine := some (.issue p i c.generation (n + 1) (decide (n + 1 = limit)) c.bank) }
    else s.beginWait i p (.ceiling c.generation (min (ceiling + (s.slot i).stride) limit))
  | .floor .. => s

/-- A MAKE_TAG that the engine is granted (R49, R50, R54). -/
def State.enterMakeTag (s : State) (p : Port) (slot : Nat) (expected : Option Nat) : State :=
  match s.makeTagChecks p slot expected with
  | .error e => s.refuse p e
  | .ok (i, c) =>
    match (s.slot i).wait with
    | some w => s.joinWait i w p
    | none => s.issueStep p i c

/-! ## CHECK_TAG -/

/-- The six entry checks of a CHECK_TAG, in order (R51). -/
def State.checkTagChecks (s : State) (p : Port) (slot : Nat) : Except Status (Fin 24) :=
  if s.supply.lifeCycle = .retired then .error .retired
  else if s.supply.run = .fault then .error .fault
  else match slotIndex slot with
  | none => .error .noSlot
  | some i =>
    if (s.slot i).role ≠ .accept then .error .wrongRole
    else if (s.slot i).userMap.has p = false then .error .notUser
    else if (s.slot i).current.isNone then .error .noKey
    else .ok i

/-- The cell that a CHECK_TAG is compared against: its position, F, P and bank. -/
structure Matched where
  position : Position
  f : Nat
  persisted : Nat
  bank : Fin 3
  deriving DecidableEq, Repr

/-- The floors of a CURRENT cell. -/
def Counters.floors : Counters → Nat × Nat
  | .floor f p => (f, p)
  | .issue .. => (0, 0)

/-- The matching of the named generation, in the order of the table of R52. -/
def Slot.matching (c : Slot) (generation : Nat) : Except Status Matched :=
  match c.current.filter (fun k => decide (k.generation = generation)) with
  | some k =>
    if k.state = .expired then .error .expired
    else if k.state = .spent then .error .spent
    else .ok ⟨.current, k.counters.floors.1, k.counters.floors.2, k.bank⟩
  | none =>
    match c.prior.filter (fun k => decide (k.generation = generation)) with
    | some k => .ok ⟨.prior, k.f, k.persisted, k.bank⟩
    | none => .error .unknownGen

/-- A CHECK_TAG that the engine is granted (R37, R51, R52, R54): a counter at or below the floor is refused REPLAYED with no turn
of the block cipher; above it the tag is computed. -/
def State.enterCheckTag (s : State) (p : Port) (slot generation counter : Nat) (tag : Tag) : State :=
  match s.checkTagChecks p slot with
  | .error e => s.refuse p e
  | .ok i =>
    match (s.slot i).wait with
    | some w => s.joinWait i w p
    | none =>
      match (s.slot i).matching generation with
      | .error e => s.refuse p e
      | .ok m =>
        if counter ≤ m.f then s.refuse p .replayed
        else { s with engine := some (.compare p i generation counter tag m.position m.bank
                        (m.persisted + (s.slot i).stride)) }

/-! ## PIN and UNPIN -/

/-- Whether activation is requested for a batch in the engine that names slot `i` (R15 check 6, R101). -/
def State.activationDue (s : State) (i : Fin 24) : Bool :=
  s.renewal.activation && (decide (s.renewal.state = .armed) || decide (s.renewal.state = .committing)) &&
  s.renewal.named.contains i

/-- The reply of a PIN: pinned generation, pin end in 5 bytes (chapter 11). -/
def Pin.reply (k : Pin) : List Byte := beBytes 2 k.generation ++ beBytes 5 k.pinEnd

/-- The checks of a PIN, in order (R15): the refusal, or the slot, its CURRENT cell and the pin ticks. -/
def State.pinChecks (s : State) (p : Port) (slot : Nat) : Except Status (Fin 24 × Current × Nat) :=
  if s.supply.lifeCycle = .retired then .error .retired
  else if s.supply.run = .fault then .error .fault
  else match slotIndex slot with
  | none => .error .noSlot
  | some i =>
    if (s.slot i).role ≠ .issue ∧ (s.slot i).role ≠ .accept then .error .wrongRole
    else if (s.slot i).userMap.has p = false then .error .notUser
    else match (s.slot i).current with
    | none => .error .noKey
    | some c =>
      let ticks := match (s.slot i).policy with | some q => q.pinTicks | none => 0
      if c.state ≠ .live then .error .noKey
      else if ticks = 0 then .error .notPinnable
      else if s.activationDue i then .error .activationDue
      else if (s.slot i).pin.any (fun k => decide (k.holder ≠ p)) then .error .pinnedElsewhere
      else .ok (i, c, ticks)

/-- A PIN that the engine is granted (R15, R16): the holder's own pin is confirmed unchanged. -/
def State.enterPin (s : State) (p : Port) (slot : Nat) : State :=
  match s.pinChecks p slot with
  | .error e => s.refuse p e
  | .ok (i, c, ticks) =>
    match (s.slot i).pin with
    | some k => s.complete p .ok k.reply
    | none =>
      let k : Pin := ⟨p, c.generation, s.now + ticks⟩
      (s.setSlot i { s.slot i with pin := some k }).complete p .ok k.reply

/-- The checks of an UNPIN, in order (R18). -/
def State.unpinChecks (s : State) (p : Port) (slot : Nat) : Except Status (Fin 24) :=
  if s.supply.lifeCycle = .retired then .error .retired
  else if s.supply.run = .fault then .error .fault
  else match slotIndex slot with
  | none => .error .noSlot
  | some i =>
    if (s.slot i).userMap.has p = false then .error .notUser
    else if (s.slot i).pin.any (fun k => decide (k.holder = p)) then .ok i
    else .error .notPinned

/-- An UNPIN that the engine is granted (R18): the pin is removed and the commit start test is made (R105). -/
def State.enterUnpin (s : State) (p : Port) (slot : Nat) : State :=
  match s.unpinChecks p slot with
  | .error e => s.refuse p e
  | .ok i => ((s.setSlot i { s.slot i with pin := none }).complete p .ok []).commitStart

/-! ## Grants (R56, R64 to R67) -/

/-- A port operation that the engine is granted, newly or anew from its first check (R56). -/
def State.enter (s : State) (p : Port) : State :=
  match (s.port p).request with
  | some (.makeTag slot expected) => s.enterMakeTag p slot expected
  | some (.checkTag slot generation counter tag) => s.enterCheckTag p slot generation counter tag
  | some (.pin slot) => s.enterPin p slot
  | some (.unpin slot) => s.enterUnpin p slot
  | some (.cancel _) => s
  | none => s

/-- The reply of an accepted CHECK_TAG: the position and generation of the accepting cell (R53). -/
def acceptedReply (position : Position) (generation : Nat) : List Byte := position.code :: beBytes 2 generation

/-- A resumed operation that the engine is granted (R56): the owner of a FLOOR write is completed as an acceptance and not checked
again; any other begins anew. -/
def State.grantResumed (s : State) (r : Resumed) : State :=
  match r.accepted with
  | some (position, generation) => s.complete r.port .ok (acceptedReply position generation)
  | none => s.enter r.port

/-- The grant of the table hold (R110): the state becomes COMMITTING, the commit takes Tc, and COMMIT_BEGIN is handed over. -/
def State.grantHold (s : State) : State :=
  { s with
    arbiter := { s.arbiter with hold := .granted }
    renewal := { s.renewal with state := .committing }
    commit := some ⟨s.now, false, .begin, [], none, []⟩ }.handOver
      (.append (.commitBegin s.renewal.sequence s.now)) .commitBegin

/-- Slot 0's CURRENT generation and bank where it is LIVE, as a checking operation reads them at its grant (R60, R61). -/
def State.renewalKey (s : State) : Option (Nat × Fin 3) :=
  match (s.slot 0).current with
  | some c => if c.state = .live then some (c.generation, c.bank) else none
  | none => none

/-- The grant of the checking request (R66). -/
def State.grantChecking (s : State) (c : CheckInput) : State :=
  { s with
    arbiter := { s.arbiter with checking := none, passed := 0 }
    engine := some (.check true c s.renewalKey) }

/-- The grant of a port's request (R65, R66): the turn record takes the port, and the checking passed count rises while a checking
request waits. -/
def State.grantPort (s : State) (p : Port) : State :=
  let a := s.arbiter.setWaiting p false
  let a := { a with turn := p, passed := if a.checking.isSome then min 2 (a.passed + 1) else a.passed }
  State.enter { s with arbiter := a } p

/-- The port that a port grant takes: the one that waits, and of two the one the turn record does not name (R65). -/
def Arbiter.nextPort (a : Arbiter) : Option Port :=
  if a.waitM && a.waitL then some a.turn.other
  else if a.waitM then some .M
  else if a.waitL then some .L
  else none

/-- One grant, the first case of R64's table that applies; none where the engine is busy, the hold is granted or no one may be
granted. -/
def State.grant (s : State) : Option State :=
  if s.engine.isSome ∨ s.arbiter.hold = .granted then none
  else match s.arbiter.resumed with
  | r :: rest => some (State.grantResumed { s with arbiter := { s.arbiter with resumed := rest } } r)
  | [] =>
    if s.arbiter.hold = .requested ∧ s.inCharge .M = false ∧ s.inCharge .L = false then some s.grantHold
    else match s.arbiter.checking, decide (s.arbiter.passed = 2) with
    | some c, true => some (s.grantChecking c)
    | _, _ =>
      match s.arbiter.nextPort, decide (s.arbiter.hold = .none) with
      | some p, true => some (s.grantPort p)
      | _, _ =>
        match s.arbiter.checking with
        | some c => some (s.grantChecking c)
        | none => none

/-- Grants are made while one can be (R64): each takes one requester away, and the one an UNPIN may add is the hold, so the
resumed list and six more bound them. -/
def State.grants : Nat → State → State
  | 0, s => s
  | n + 1, s =>
    match s.grant with
    | some t => State.grants n t
    | none => s

/-- The end of an event that may leave the engine free or a requester waiting: the arbiter's grants (R64), then the drain
condition (R164). -/
def State.settle (s : State) : State := (State.grants (s.arbiter.resumed.length + 6) s).drain

/-! ## The events of the engine -/

/-- The reply of a MAKE_TAG: generation, counter, tag, LAST (R50, chapter 11). -/
def issueReply (generation counter : Nat) (tag : Tag) (last : Bool) : List Byte :=
  beBytes 2 generation ++ beBytes 4 counter ++ beBytes 8 tag.toNat ++ [flagByte [last]]

/-- ISSUE (R50): the tag over the value issued has been computed, the request is completed OK and the engine is free. -/
def execIssue (s : State) : Host.Outcome State Fault Refusal :=
  match s.engine with
  | some (.issue p i generation counter last bank) =>
    let msg := makeTagMessage (s.port p).buffer.payload
    let tag := tagOver (s.journal.keyAt i bank) i.val generation counter msg
    .next (State.settle ({ s with engine := none }.complete p .ok (issueReply generation counter tag last)))
  | _ => .next s

/-- The floor of the matched cell takes `c` at an acceptance within the window; a cell that has gone takes nothing (R37, R52). -/
def State.acceptFloor (s : State) (i : Fin 24) (generation : Nat) (position : Position) (c : Nat) : State :=
  match position with
  | .current =>
    match (s.slot i).current with
    | some k =>
      if k.generation = generation then
        let s := s.setSlot i { s.slot i with current := some { k with counters := .floor c k.counters.floors.2 } }
        (s.evaluateLow i).evaluateSpent i
      else s
    | none => s
  | .prior =>
    match (s.slot i).prior with
    | some k => if k.generation = generation then s.setSlot i { s.slot i with prior := some { k with f := c } } else s
    | none => s

/-- The comparison of a CHECK_TAG (R53): BAD_TAG, an acceptance within the window, or a floor write. One that was in the engine when
FAULT was entered runs to its end (R58): model's reading, its acceptance raises F in FAULT, against the letter of R46 (log entry 37), and
the COUNTER_LOW and SPENT it calls for, which the FAULT row of R185 does not list (log entry 38). -/
def State.compareTag (s : State) (p : Port) (i : Fin 24) (generation counter : Nat) (tag : Tag) (position : Position)
    (bank : Fin 3) (edge : Nat) : State :=
  let msg := checkTagMessage (s.port p).buffer.payload
  if tagOver (s.journal.keyAt i bank) i.val generation counter msg ≠ tag then s.refuse p .badTag
  else if counter < edge then
    (s.acceptFloor i generation position counter).complete p .ok (acceptedReply position generation)
  else s.beginWait i p (.floor generation counter position)

/-- TAG_COMPARISON (R53). -/
def execTagComparison (s : State) : Host.Outcome State Fault Refusal :=
  match s.engine with
  | some (.compare p i generation counter tag position bank edge) =>
    .next (State.settle ({ s with engine := none }.compareTag p i generation counter tag position bank edge))
  | _ => .next s

/-! ## The end of a write wait (R55) -/

/-- Whether slot `i` holds the cell that a FLOOR record was written for; of a PRIOR that has been removed the record is not live
(R55). -/
def State.holdsCell (s : State) (i : Fin 24) (generation : Nat) : Position → Bool
  | .current => (s.slot i).current.any fun k => decide (k.generation = generation)
  | .prior => (s.slot i).prior.any fun k => decide (k.generation = generation)

/-- The key table takes the value of a completed CEILING or FLOOR record (R27, R38, R55). -/
def State.takeRecord (s : State) (i : Fin 24) : WaitRecord → State
  | .ceiling generation value =>
    match (s.slot i).current with
    | some k =>
      match k.counters with
      | .issue n _ limit =>
        if k.generation = generation then
          s.setSlot i { s.slot i with current := some { k with counters := .issue n value limit } }
        else s
      | .floor .. => s
    | none => s
  | .floor generation value .current =>
    match (s.slot i).current with
    | some k =>
      if k.generation = generation then
        let s := s.setSlot i { s.slot i with current := some { k with counters := .floor value value } }
        (s.evaluateLow i).evaluateSpent i
      else s
    | none => s
  | .floor generation value .prior =>
    match (s.slot i).prior with
    | some k =>
      if k.generation = generation then s.setSlot i { s.slot i with prior := some { k with f := value, persisted := value } }
      else s
    | none => s

/-- The entries of the resumed list that the end of a write wait adds: its owner, then its waiters (R55, R56). -/
def WriteWait.resumed (w : WriteWait) : List Resumed :=
  (match w.record with
   | .floor generation _ position => ⟨w.owner, some (position, generation)⟩
   | .ceiling .. => ⟨w.owner, none⟩) :: w.waiters.map fun p => ⟨p, none⟩

/-- The completion of the record of a slot's write wait (R55). -/
def State.endWait (s : State) (i : Fin 24) : State :=
  match (s.slot i).wait with
  | some w =>
    let s := s.takeRecord i w.record
    let s := s.setSlot i { s.slot i with wait := none }
    { s with arbiter := { s.arbiter with resumed := s.arbiter.resumed ++ w.resumed } }
  | none => s

/-- The end of a slot's write wait at the entry into FAULT (R58): its owner and waiters are refused FAULT. -/
def State.faultWait (s : State) (i : Fin 24) : State :=
  match (s.slot i).wait with
  | some w => (w.owner :: w.waiters).foldl (fun s p => s.refuse p .fault) (s.setSlot i { s.slot i with wait := none })
  | none => s

end Sys2Proof.Machine
end

