-- ==== Sys2Proof/Machine/Renewal.lean ====
section
/-! DEFINITION. The renewal engine from checking to ARMED, and every way a batch ends (chapter 4). -/

namespace Sys2Proof.Machine

/-! ## The end of a batch -/

/-- Each slot record changed by `f`. -/
def State.mapSlots (s : State) (f : Fin 24 → Slot → Slot) : State :=
  (List.finRange 24).foldl (fun s i => s.setSlot i (f i (s.slot i))) s

/-- Every NEXT cell is removed and its bank freed (R10): NEXT cells are those of the one batch in the engine. -/
def State.dropNexts (s : State) : State := s.mapSlots fun _ c => { c with next := none }

/-- Whether a write is one that checking handed over for the batch in the engine. -/
def Requester.ofBatch : Requester → Bool
  | .checkFloor attached => attached
  | .checkBank attached _ => attached
  | .checkStep attached _ => attached
  | .checkArm => true
  | _ => false

/-- The requester of a write whose batch has ended (R145). -/
def Requester.detached : Requester → Requester
  | .checkFloor _ => .checkFloor false
  | .checkBank _ i => .checkBank false i
  | .checkStep _ last => .checkStep false last
  | r => r

/-- The entry with its batch ended. -/
def Entry.detached (e : Entry) : Entry := { e with requester := e.requester.detached }

/-- Whether an entry is a bank write of the batch in the engine. -/
def Entry.batchBank (e : Entry) : Bool :=
  match e.requester with
  | .checkBank attached _ => attached
  | _ => false

/-- The writes of a batch that ends early (R91, R145): the one in service completes, records in the queue stay, waiting bank
writes are removed, writes of the place list are withdrawn, and the places freed are taken. STEP records already written are
stale (R90, R147). DEDUCED (log 42): the oldest entry counts as in service, also where it became the oldest at this same event, by the
completion that placed a bank write whose next step then fails: a bank write of the batch that is now the oldest completes. -/
def Journal.batchEnded (j : Journal) (sequence : Nat) : Journal :=
  let queue := match j.queue with
    | [] => []
    | e :: rest => e.detached :: (rest.filter (fun x => !x.batchBank)).map Entry.detached
  Journal.refilled { j with
    queue := queue
    place := j.place.filter fun x => !x.requester.ofBatch
    live := j.without fun b => match b with | .step q _ => decide (q = sequence) | _ => false }

/-- A checking operation in the engine whose batch has ended runs to its end and its result is discarded (R62). -/
def EngineOp.detached : EngineOp → EngineOp
  | .check _ input key => .check false input key
  | op => op

/-- The effects that every early end of a batch in STAGING or CHECKING has (R91, R95, R97): NEXT cells, writes, the checking
request and the batch itself. -/
def State.endBatch (s : State) (result : BatchResult) : State :=
  let s := s.dropNexts
  { s with
    journal := s.journal.batchEnded s.renewal.sequence
    arbiter := { s.arbiter with checking := none, passed := 0 }
    engine := s.engine.map EngineOp.detached
    renewal := { Renewal.idle with result := result, lastCommitted := s.renewal.lastCommitted } }

/-- The step outcome list of the batch in the engine as it stands: empty in STAGING (R92). -/
def Renewal.outcomes (r : Renewal) : List StepOutcome :=
  if r.state = .staging then [] else r.result.steps

/-- A batch in STAGING or CHECKING refused with a reason (R78, R91, R97, R98). -/
def State.refuseBatch (s : State) (reason : BatchReason) : State :=
  (s.endBatch ⟨s.renewal.sequence, .refused reason, s.renewal.outcomes⟩).raiseBatch .batchRefused s.renewal.sequence

/-- A batch in STAGING, or in CHECKING before its ARM record is handed over, cancelled at once (R95). -/
def State.cancelBatch (s : State) : State :=
  s.endBatch ⟨s.renewal.sequence, .cancelled, s.renewal.outcomes⟩

/-- Whether the batch may still be abandoned and cancelled at once: STAGING, or CHECKING before the hand-over of the ARM record
(R94, R97). -/
def Renewal.beforeArm (r : Renewal) : Bool :=
  decide (r.state = .staging) || (decide (r.state = .checking) && decide (r.checking ≠ some .arm))

/-! ## Arming (R88, R89) -/

/-- The stage of checking set. -/
def State.setStage (s : State) (g : CheckStage) : State := { s with renewal := { s.renewal with checking := some g } }

/-- The ARM record is handed over, with the activation tick computed at that event (R88). -/
def State.handArm (s : State) : State :=
  let tick : Option Nat := match s.renewal.header with
    | some h => h.delay.bind fun d => if d = 0 then none else some (s.now + d)
    | none => none
  ({ s with renewal := { s.renewal with activationTick := tick, checking := some .arm } }).handOver
    (.append (.arm s.renewal.sequence s.renewal.named tick s.renewal.result.steps)) .checkArm

/-- STEP records handed over in index order, each waiting for a place before the next (R88, R143). -/
def State.handSteps : List AppliedStep → State → State
  | [], s => s.setStage (.records [])
  | a :: rest, s =>
    let t := s.handOver (.append (.step s.renewal.sequence a)) (.checkStep true rest.isEmpty)
    match s.handing with
    | .queued => State.handSteps rest t
    | .placed => t.setStage (.records rest)
    | .faulted => s

/-- The applied steps of the batch in checking, with the banks of their NEXT cells (R88). -/
def State.appliedSteps (s : State) : List AppliedStep :=
  (s.renewal.buffer.zip s.renewal.result.steps).filterMap fun e =>
    match e.2 with
    | .applied => some (e.1.applied fun i => match (s.slot i).next with | some n => n.bank | none => 0)
    | .dropped _ => none

/-- The records stage begins (R85, R88): with no applied step the ARM record is handed over at once. -/
def State.beginRecords (s : State) : State :=
  let steps := s.appliedSteps
  let s := { s with renewal := { s.renewal with applied := steps } }
  if steps.isEmpty then s.handArm else State.handSteps steps s

/-- Whether every bank write of the batch has completed (R87): no NEXT cell is PENDING. -/
def State.imagesDone (s : State) : Bool := (List.finRange 24).all fun i => (s.slot i).next.all (·.ready)

/-- The images-complete stage ends when every NEXT cell of the batch is READY (R87). -/
def State.tryImages (s : State) : State :=
  if s.renewal.checking = some .images ∧ s.imagesDone = true then s.beginRecords else s

/-! ## Step checks (R82 to R84) -/

/-- A LIFECYCLE step passes (R83). -/
def State.lifecyclePasses (s : State) (target : LifeCycle) : Bool :=
  match s.supply.lifeCycle, target with
  | .factory, .operational =>
    (s.slot 0).current.any (fun c => decide (1 < c.generation)) ||
    (s.renewal.buffer.zip s.renewal.result.steps).any fun e =>
      decide (e.2 = .applied) && (match e.1.part with | .install i .. => decide (i = 0) | _ => false)
  | .factory, .retired => true
  | .operational, .retired => true
  | _, _ => false

/-- The reason a step fails its checks, the first of R82's table that applies; none where it passes. -/
def State.stepFails (s : State) (part : StepPart) : Option StepReason :=
  match part with
  | .clear i =>
    if i = 0 then some .slot0
    else if (s.slot i).role = .empty then some .role
    else none
  | .policy i .. =>
    if i = 0 then some .slot0
    else if (s.slot i).role = .empty then some .role
    else none
  | .endGrace i =>
    if i = 0 then some .role
    else if (s.slot i).role = .empty then some .role
    else if (s.slot i).role = .issue then some .role
    else if (s.slot i).prior.isNone then some .grace
    else none
  | .install i generation _ _ budget define policy =>
    if define.isSome ∧ (s.slot i).role ≠ .empty then some .define
    else if define.isNone ∧ (s.slot i).role = .empty then some .define
    else if i = 0 ∧ policy.isSome then some .slot0
    else if budget.isSome ∧ ((s.slot i).role = .accept ∨ (s.slot i).role = .renew ∨
        define.any (fun d => decide (d.role = .accept)) = true) then some .role
    else if (s.slot i).current.any (fun c => decide (generation ≤ c.generation)) = true ∨
        (s.slot i).prior.any (fun c => decide (generation ≤ c.generation)) = true then some .gen
    else none
  | .lifecycle target _ => if s.lifecyclePasses target then none else some .lifecycle

/-- The bank that R13 assigns to a new NEXT cell: the lowest of the slot's three that neither its CURRENT nor its PRIOR uses. -/
def Slot.freeBank (c : Slot) : Fin 3 :=
  let used (b : Fin 3) : Bool := c.current.any (fun k => decide (k.bank = b)) || c.prior.any (fun k => decide (k.bank = b))
  if used 0 = false then 0 else if used 1 = false then 1 else 2

/-- An outcome added to the step outcome list (R84). -/
def State.addOutcome (s : State) (o : StepOutcome) : State :=
  { s with renewal := { s.renewal with result := { s.renewal.result with steps := s.renewal.result.steps ++ [o] } } }

/-- A checking request presented to the arbiter (R62, R79). -/
def State.present (s : State) (c : CheckInput) : State := { s with arbiter := { s.arbiter with checking := some c } }

/-- The steps from place `i` of the buffer taken in hand in order (R82, R84, R86): dropped steps and those without an unwrap are
decided at once, an INSTALL that passes presents its unwrap, a required step that fails ends the batch. -/
def State.takeSteps : List StepRecord → Nat → State → State
  | [], _, s => (s.setStage .images).tryImages
  | r :: rest, i, s =>
    match s.stepFails r.part with
    | some reason =>
      if r.required then s.refuseBatch (.stepFailed r.index reason)
      else State.takeSteps rest (i + 1) (s.addOutcome (.dropped reason))
    | none =>
      match r.part with
      | .install slot generation blob .. =>
        (s.setStage (.unwrap i)).present (.unwrap blob slot generation (s.slot slot).freeBank)
      | _ => State.takeSteps rest (i + 1) (s.addOutcome .applied)

/-- Checking takes the step at place `i` of the buffer in hand. -/
def State.stepsFrom (s : State) (i : Nat) : State := State.takeSteps (s.renewal.buffer.drop i) i s

/-! ## The stages (R80, R81, R86) -/

/-- The batch message (R204): the payload bytes of BATCH_OPEN, then of each held step's BATCH_STEP, in index order. -/
def Renewal.message (r : Renewal) : List Byte :=
  (match r.header with | some h => h.bytes | none => []) ++ r.buffer.flatMap fun x => x.bytes

/-- The sequence stage (R80), then the authenticator check presented (R81). -/
def State.beginChecking (s : State) (tag : Tag) : State :=
  if s.f0.any (fun f => decide (s.renewal.sequence ≤ f)) then s.refuseBatch .oldSequence
  else (s.setStage .authenticator).present (.authenticator s.renewal.sequence s.renewal.message tag)

/-- The hand-back of the authenticator check (R81): refused BAD_AUTH on a mismatch; on a match the FLOOR record that consumes the
sequence is handed over. -/
def State.authenticated (s : State) (verdict : Bool) (generation : Nat) : State :=
  if verdict then
    (s.setStage .floorWrite).handOver (.append (.floor 0 generation s.renewal.sequence none)) (.checkFloor true)
  else s.refuseBatch .badAuth

/-- The verdict of the authenticator check (R60): mismatch where slot 0's CURRENT was not LIVE at the grant. -/
def State.authVerdict (s : State) (sequence : Nat) (message : List Byte) (tag : Tag) : Option (Nat × Fin 3) → Bool
  | some (generation, bank) => decide (tagOver (s.journal.keyAt 0 bank) 0 generation sequence message = tag)
  | none => false

/-- AUTHENTICATOR_CHECK (R60, R81): the check in the engine completes; a result whose batch has ended is discarded (R62). -/
def execAuthenticatorCheck (s : State) : Host.Outcome State Fault Refusal :=
  match s.engine with
  | some (.check attached (.authenticator sequence message tag) key) =>
    let verdict := s.authVerdict sequence message tag key
    let s := { s with engine := none }
    .next (State.settle
      (if attached then s.authenticated verdict (match key with | some k => k.1 | none => 0) else s))
  | _ => .next s

/-- The key and verdict of an unwrap (R61): bad where slot 0's CURRENT was not LIVE at the grant. -/
def State.unwrapVerdict (s : State) (blob : Blob) (slot : Fin 24) (generation : Nat) : Option (Nat × Fin 3) → Option Key
  | some (_, bank) =>
    let out := Config.unwrapFunction blob (s.journal.keyAt 0 bank) slot.val generation
    if out.2 then some out.1 else none
  | none => none

/-- The lifetime and budget of an INSTALL step. -/
def StepPart.lifeAndBudget : StepPart → Option Nat × Option Nat
  | .install _ _ _ life budget _ _ => (life, budget)
  | _ => (none, none)

/-- The good hand-back of an unwrap (R86): the NEXT cell is made PENDING, its bank write handed over, the step APPLIED, and the next
step taken in hand once the bank write has a place (R143). DEDUCED (log 41): where the INSTALL defines a slot that is still EMPTY, the
NEXT cell stands in that EMPTY slot until the commit, and SLOT_STATUS reports it there; R2 says of an EMPTY slot that it holds no cell. -/
def State.unwrapped (s : State) (i : Nat) (part : StepPart) (slot : Fin 24) (generation : Nat) (bank : Fin 3) (key : Key) :
    State :=
  let lb := part.lifeAndBudget
  let s := s.setSlot slot { s.slot slot with next := some ⟨generation, false, lb.1, lb.2, bank⟩ }
  let s := s.addOutcome .applied
  let t := s.handOver (.bankWrite slot bank generation key) (.checkBank true slot)
  match s.handing with
  | .queued => t.stepsFrom (i + 1)
  | .placed => t.setStage (.bankPlace i)
  | .faulted => s

/-- The bad hand-back of an unwrap: the step fails WRAP (R84, R86). -/
def State.unwrapFailed (s : State) (i : Nat) (r : StepRecord) : State :=
  if r.required then s.refuseBatch (.stepFailed r.index .wrap)
  else (s.addOutcome (.dropped .wrap)).stepsFrom (i + 1)

/-- What checking does with the result of an unwrap (R86). -/
def State.takeUnwrap (s : State) (slot : Fin 24) (generation : Nat) (bank : Fin 3) (out : Option Key) : State :=
  match s.renewal.checking with
  | some (.unwrap i) =>
    match s.renewal.buffer[i]? with
    | some r =>
      match out with
      | some key => s.unwrapped i r.part slot generation bank key
      | none => s.unwrapFailed i r
    | none => s
  | _ => s

/-- UNWRAP (R61, R86): the unwrap in the engine completes; a result whose batch has ended is discarded (R62). -/
def execUnwrap (s : State) : Host.Outcome State Fault Refusal :=
  match s.engine with
  | some (.check attached (.unwrap blob slot generation bank) key) =>
    let out := s.unwrapVerdict blob slot generation key
    let s := { s with engine := none }
    .next (State.settle (if attached then s.takeUnwrap slot generation bank out else s))
  | _ => .next s

/-! ## What completed writes do (R43, R81, R87, R89, R96) -/

/-- The completion of the FLOOR record of an authenticator stage (R43, R81, R95): F0 and P take the sequence whatever became of its
batch; a slot 0 cell at LIMIT is SPENT. -/
def State.takeSequence (s : State) (generation value : Nat) : State :=
  match (s.slot 0).current with
  | some k =>
    if k.generation = generation then
      (s.setSlot 0 { s.slot 0 with current := some { k with counters := .floor value value } }).evaluateSpent 0
    else s
  | none => s

/-- The authenticator stage has completed (R81, R204): the steps' payload bytes are discarded and the steps stage begins. -/
def State.beginSteps (s : State) : State :=
  let s := { s with renewal := { s.renewal with buffer := s.renewal.buffer.map fun (r : StepRecord) => { r with bytes := [] } } }
  s.stepsFrom 0

/-- The completion of a NEXT cell's bank write (R87). -/
def State.imageWritten (s : State) (i : Fin 24) : State :=
  (s.setSlot i { s.slot i with next := (s.slot i).next.map fun n => { n with ready := true } }).tryImages

/-- A CANCEL of the armed batch (R96): the disarm mark is set, the flag cleared, a requested hold withdrawn, and the DISARM record
handed over. -/
def State.beginDisarm (s : State) : State :=
  let r : Renewal := { s.renewal with disarm := true, activation := false }
  let a : Arbiter := { s.arbiter with hold := if s.arbiter.hold = .requested then .none else s.arbiter.hold }
  State.handOver { s with renewal := r, arbiter := a } (.append (.disarm s.renewal.sequence)) .disarm

/-- The completion of the ARM record (R89): the batch is ARMED and BATCH_ARMED raised; the flag is set at the same event where the
activation tick is reached (R104); a CANCEL that waited for the record goes on to disarm (R96). -/
def State.armed (s : State) : State :=
  let r := s.renewal
  let r' : Renewal :=
    { r with state := .armed, buffer := [], authenticator := none, checking := none, activation := false,
             disarm := false, result := { r.result with outcome := .armed } }
  let s := { s with renewal := r' }
  let s := (s.raiseBatch .batchArmed r.sequence).scheduledActivation
  if s.canceller.isSome then s.beginDisarm else s

/-- The completion of the DISARM record (R96): the NEXT cells are removed, the batch is gone, and the CANCEL is completed OK. -/
def State.disarmed (s : State) : State :=
  let r := s.renewal
  let s := s.dropNexts
  let r' : Renewal :=
    { Renewal.idle with result := ⟨r.sequence, .cancelled, r.result.steps⟩, lastCommitted := r.lastCommitted }
  let s := { s with renewal := r' }
  match s.canceller with
  | some p => s.complete p .ok []
  | none => s

/-- What a requester in checking does when its write has left the place list for the queue (R79, R143). -/
def State.checkingPlaced (s : State) : Requester → State
  | .checkBank true _ =>
    (match s.renewal.checking with
     | some (.bankPlace i) => s.stepsFrom (i + 1)
     | _ => s)
  | .checkStep true _ =>
    (match s.renewal.checking with
     | some (.records rest) => State.handSteps rest s
     | _ => s)
  | _ => s

end Sys2Proof.Machine
end

