-- ==== Sys2Proof/Machine/Erase.lean ====
section
/-! DEFINITION. The RETIRED erase (R176, R177). -/

namespace Sys2Proof.Machine

/-- Whether a slot's newest SLOT record already names no cell and, for slots 1 to 23, the role EMPTY; a slot of 1 to 23 without a
SLOT record counts as one (R176). -/
def State.slotErased (s : State) (i : Fin 24) : Bool :=
  match s.journal.baseSlot i with
  | none => decide (i ≠ 0)
  | some m => m.current.isNone && m.prior.isNone && (decide (i = 0) || decide (m.role = .empty))

/-- The SLOT contents that the erase writes (R176): slot 0 keeps role RENEW and its fixed policy, every other slot is EMPTY. -/
def erasedMeta (i : Fin 24) : SlotMeta :=
  if i = 0 then { SlotMeta.delivered with current := none } else ⟨.empty, .none, .none, none, none, none⟩

/-- A slot record with its cells removed, and for slots 1 to 23 the role, maps and policy too (R176). -/
def Slot.erased (i : Fin 24) (c : Slot) : Slot :=
  if i = 0 then { c with current := none, next := none, prior := none } else { Slot.blank with pin := c.pin, wait := c.wait }

/-- The item after the one in hand: a slot's banks 0 to 2 and its SLOT record, then the next slot (R176). -/
def Erase.after (i : Fin 24) (item : Fin 4) : Erase :=
  if h : item.val < 3 then .at i ⟨item.val + 1, by omega⟩
  else if h : i.val < 23 then .at ⟨i.val + 1, by omega⟩ 0
  else .complete

/-- The write of an item that is not passed over: a bank that is not erased, or a SLOT record that is still due (R176). -/
def State.eraseItem (s : State) (i : Fin 24) (item : Fin 4) : Option Write :=
  if h : item.val < 3 then
    if (s.journal.bank i ⟨item.val, h⟩).isSome then some (.bankErase i ⟨item.val, h⟩) else none
  else if s.slotErased i then none
  else some (.append (.slot i none (erasedMeta i)))

/-- Whether the erase may hand an item over: in RUN, and in stage 5 of start-up while the warning is released and the fault mark
clear (R163, R166, R170). -/
def State.eraseMayHand (s : State) : Bool :=
  decide (s.supply.run = .run) ||
  (decide (s.supply.run = .starting) && !s.supply.warning && !s.supply.faultMark)

/-- The erase progress set. -/
def State.setErase (s : State) (e : Erase) : State := { s with supply := { s.supply with erase := e } }

/-- The erase goes on from the item in hand (R176): items with nothing to write are passed over; the first that has a write is
handed over where the run state lets it, and waited for. 96 items bound the walk. -/
def State.eraseOn : Nat → State → State
  | 0, s => s
  | n + 1, s =>
    match s.supply.erase with
    | .at i item =>
      match s.eraseItem i item with
      | none => State.eraseOn n (s.setErase (Erase.after i item))
      | some w => if s.eraseMayHand then s.handOver w .erase else s
    | .none => s
    | .complete => s

/-- The erase goes on from the item in hand. -/
def State.eraseGo (s : State) : State := State.eraseOn 97 s

/-- Whether an item of the erase is in the queue or the place list; it holds at most one write there (R176). -/
def State.eraseBusy (s : State) : Bool :=
  (s.journal.queue ++ s.journal.place).any fun e => decide (e.requester = .erase)

/-- The completion of an item of the erase: a SLOT record removes the slot's cells (R176). -/
def State.eraseDone (s : State) : State :=
  match s.supply.erase with
  | .at i item =>
    let s := if item = 3 then s.setSlot i ((s.slot i).erased i) else s
    s.setErase (Erase.after i item)
  | .none => s
  | .complete => s

end Sys2Proof.Machine
end

