-- ==== Sys2Proof/Machine/Commit.lean ====
section
/-! DEFINITION. The commit (chapter 5): what it computes, the records it writes, and its end. Start-up rolls an open commit forward
with the same computation (R155). -/

namespace Sys2Proof.Machine

/-! ## Compute (R34, R35, R45, R111 to R114) -/

/-- A policy as a slot of a role stores it: G = 0 on an ISSUE slot (R7). -/
def Policy.storedFor (p : Policy) (role : Role) : Policy := if role = .issue then { p with grace := 0 } else p

/-- The SLOT record of new contents (R114). -/
def NewSlot.body (c : NewSlot) (sequence : Nat) : Body :=
  .slot c.slot (some sequence) (SlotMeta.of c.role c.userMap c.notifyMap c.policy c.current c.prior)

/-- A PRIOR within the window of the stride that the commit leaves, and the FLOOR record it needs where it was not (R45). -/
def Prior.windowed (k : Prior) (i : Fin 24) (stride sequence : Nat) : Prior × List Body :=
  if k.persisted + stride ≤ k.f then ({ k with persisted := k.f }, [.floor i k.generation k.f (some sequence)]) else (k, [])

/-- A kept CURRENT within the window, as `Prior.windowed`; an ISSUE cell has no window (R44, R45). -/
def Current.windowed (k : Current) (i : Fin 24) (stride sequence : Nat) : Current × List Body :=
  match k.counters with
  | .floor f p =>
    if p + stride ≤ f then ({ k with counters := .floor f f }, [.floor i k.generation f (some sequence)]) else (k, [])
  | .issue .. => (k, [])

/-- A cell that may be absent, brought within the window. -/
def windowedOpt {α : Type} (f : α → α × List Body) : Option α → Option α × List Body
  | some a => (some (f a).1, (f a).2)
  | none => (none, [])

/-- The starting numbers of a new CURRENT of an ISSUE slot (R34). -/
def issueStart (carry : Bool) (old : Option Current) (stride : Nat) (budget : Option Nat) : Counters :=
  let n0 := if carry then
      (match old with | some k => (match k.counters with | .issue _ ceiling _ => ceiling | .floor .. => 0) | none => 0)
    else 0
  let limit := match budget with | some b => min LIMIT (n0 + b) | none => LIMIT
  .issue n0 (min (n0 + stride) limit) limit

/-- The starting floors of a new CURRENT of an ACCEPT slot or slot 0 (R35). -/
def floorStart (carry : Bool) (old : Option Current) : Counters :=
  let f := if carry then (match old with | some k => k.counters.floors.1 | none => 0) else 0
  .floor f f

/-- The PRIOR that an INSTALL leaves (R112): with G above 0 on an ACCEPT slot the old CURRENT; with G = 0 the PRIOR already
there. -/
def installPrior (role : Role) (grace : Nat) (old : Slot) (tc : Nat) : Option Prior :=
  if role ≠ .accept then none
  else match old.current with
  | some k =>
    if 0 < grace then some ⟨k.generation, k.activation, k.counters.floors.1, k.counters.floors.2, tc + grace, k.bank⟩
    else old.prior
  | none => old.prior

/-- What an INSTALL step makes of its slot, and its records (R111, R112, R114). -/
def installSlot (old : Slot) (i : Fin 24) (generation : Nat) (lifetime budget : Option Nat) (define : Option DefinePart)
    (policy : Option Policy) (bank : Fin 3) (tc sequence : Nat) : NewSlot × List Body :=
  let role := match define with | some d => d.role | none => old.role
  let user := match define with | some d => d.userMap | none => old.userMap
  let notify := match define with | some d => d.notifyMap | none => old.notifyMap
  let policy := match policy with | some p => some (p.storedFor role) | none => old.policy
  let stride := match policy with | some p => p.stride | none => 1
  let carry := match policy with | some p => decide (p.continuation = .carryOn) | none => true
  let grace := match policy with | some p => p.grace | none => 0
  let counters := if role = .issue then issueStart carry old.current stride budget else floorStart carry old.current
  let prior := windowedOpt (fun k : Prior => k.windowed i stride sequence) (installPrior role grace old tc)
  let current : Current :=
    ⟨generation, if counters.atLimit then .spent else .live, tc, lifetime, counters, bank, false, false⟩
  let c : NewSlot := ⟨i, role, user, notify, policy, some current, prior.1, true⟩
  (c, c.body sequence :: (match counters with
    | .issue _ ceiling _ => .ceiling i generation ceiling (some sequence)
    | .floor f _ => .floor i generation f (some sequence)) :: prior.2)

/-- What a POLICY step makes of its slot, and its records (R113, R114): a FLOOR for each cell outside the new window, CURRENT
first. -/
def policySlot (old : Slot) (i : Fin 24) (policy : Policy) (user notify : Option PortSet) (sequence : Nat) :
    NewSlot × List Body :=
  let current := windowedOpt (fun k : Current => k.windowed i policy.stride sequence) old.current
  let prior := windowedOpt (fun k : Prior => k.windowed i policy.stride sequence) old.prior
  let c : NewSlot := ⟨i, old.role, user.getD old.userMap, notify.getD old.notifyMap, some (policy.storedFor old.role),
    current.1, prior.1, false⟩
  (c, c.body sequence :: (current.2 ++ prior.2))

/-- What a CLEAR step makes of its slot, and its record (R113, R114). -/
def clearSlot (i : Fin 24) (sequence : Nat) : NewSlot × List Body :=
  let c : NewSlot := ⟨i, .empty, .none, .none, none, none, none, false⟩
  (c, [c.body sequence])

/-- What an END_GRACE step makes of its slot, and its record (R113, R114). -/
def endGraceSlot (old : Slot) (i : Fin 24) (sequence : Nat) : NewSlot × List Body :=
  let c : NewSlot := ⟨i, old.role, old.userMap, old.notifyMap, old.policy, old.current, none, false⟩
  (c, [c.body sequence])

/-- What one applied step computes from the key table (R111 to R113): its slot's new contents, or the LIFECYCLE change, and its
records in order (R114). A LIFECYCLE record to RETIRED carries the code in force (log entry 14). -/
def State.computeStep (s : State) (tc sequence : Nat) (a : AppliedStep) :
    List NewSlot × Option (LifeCycle × Option Nat) × List Body :=
  let one (c : NewSlot × List Body) : List NewSlot × Option (LifeCycle × Option Nat) × List Body := ([c.1], none, c.2)
  match a.part with
  | .install i generation lifetime budget define policy bank =>
    one (installSlot (s.slot i) i generation lifetime budget define policy bank tc sequence)
  | .policy i policy user notify => one (policySlot (s.slot i) i policy user notify sequence)
  | .clear i => one (clearSlot i sequence)
  | .endGrace i => one (endGraceSlot (s.slot i) i sequence)
  | .lifecycle target code =>
    ([], some (target, code), [.lifecycle target (code.getD s.time.code) (some sequence)])

/-- The computation of a commit over its applied steps in index order. -/
def State.compute (s : State) (tc sequence : Nat) :
    List AppliedStep → List NewSlot × Option (LifeCycle × Option Nat) × List Body
  | [] => ([], none, [])
  | a :: rest =>
    let x := s.computeStep tc sequence a
    let y := s.compute tc sequence rest
    (x.1 ++ y.1, (match x.2.1 with | some l => some l | none => y.2.1), x.2.2 ++ y.2.2)

/-! ## Records (R114) -/

/-- The commit in progress with its records still to hand over, in its records stage. -/
def State.setRest (s : State) (rest : List Body) : State :=
  { s with commit := s.commit.map fun c => { c with stage := .records, rest := rest } }

/-- COMMIT_END is handed over (R114). -/
def State.handEnd (s : State) : State :=
  State.handOver { s with commit := s.commit.map fun c => { c with stage := .ending, rest := [] } }
    (.append (.commitEnd s.renewal.sequence)) .commitEnd

/-- The commit's records handed over in order, each waiting for a place before the next (R114, R143). -/
def State.handRecords : List Body → State → State
  | [], s => s.setRest []
  | b :: rest, s =>
    let t := s.handOver (.append b) (.commitRecord rest.isEmpty)
    match s.handing with
    | .queued => State.handRecords rest t
    | .placed => t.setRest rest
    | .faulted => s

/-- The compute stage and the records stage (R111, R114); a batch with no applied step hands no record over. -/
def State.computeCommit (s : State) : State :=
  match s.commit with
  | some c =>
    let x := s.compute c.tc s.renewal.sequence s.renewal.applied
    let s := { s with commit := some { c with slots := x.1, lifecycle := x.2.1 } }
    if x.2.2.isEmpty then s.handEnd else State.handRecords x.2.2 s
  | none => s

/-- What a commit does when one of its records has left the place list for the queue (R114). -/
def State.commitPlaced (s : State) : State :=
  match s.commit with
  | some c => if c.stage = .records then State.handRecords c.rest s else s
  | none => s

/-! ## The end (R115 to R117) -/

/-- A CURRENT that the commit keeps in place, with the state and marks it holds at the end (R115). -/
def Current.keeping (k : Current) (visible : Option Current) : Current :=
  match visible with
  | some v => { k with state := v.state, warned := v.warned, lifeWarned := v.lifeWarned }
  | none => k

/-- A named slot takes the new contents computed for it (R115). -/
def State.takeContents (s : State) (c : NewSlot) : State :=
  let old := s.slot c.slot
  s.setSlot c.slot
    { role := c.role, userMap := c.userMap, notifyMap := c.notifyMap, policy := c.policy, pin := old.pin
      current := if c.installed then c.current else c.current.map fun k => k.keeping old.current
      next := none, prior := c.prior, wait := old.wait }

/-- Every named slot takes its new contents. -/
def State.takeAll (s : State) (cs : List NewSlot) : State := cs.foldl State.takeContents s

/-- A LIFECYCLE step takes effect (R117): the life-cycle state, and for OPERATIONAL the tick period code, whose timer starts
again (R122). -/
def State.takeLifecycle (s : State) : Option (LifeCycle × Option Nat) → State
  | some (target, code) =>
    { s with
      supply := { s.supply with lifeCycle := target }
      time := { s.time with code := code.getD s.time.code } }
  | none => s

/-- The SPENT demand of a cell that the commit installed at its limit (R34, R35, R116). -/
def State.raiseInstalledSpent (s : State) (c : NewSlot) : State :=
  if c.installed then
    match (s.slot c.slot).current with
    | some k => if k.state = .spent then s.raiseSlot .spent c.slot k.generation else s
    | none => s
  else s

/-- The evaluation of a named slot at the end of the commit, with its demands in the order of R116. -/
def State.endSlot (s : State) (c : NewSlot) : State :=
  ((((s.evaluateLow c.slot).raiseInstalledSpent c).lifeWarning c.slot).expire c.slot).endGrace c.slot

/-- The same evaluation in the commit that retires the part: its deadlines take effect and no condition demand is raised
(R116, R175). -/
def State.endSlotQuiet (s : State) (c : NewSlot) : State :=
  let t := ((s.lifeWarning c.slot).expire c.slot).endGrace c.slot
  { t with queueM := s.queueM, queueL := s.queueL }

/-- Every pin is removed, with no demand (R20, R175). -/
def State.dropPins (s : State) : State := s.mapSlots fun _ c => { c with pin := none }

/-- The completion of COMMIT_END (R115 to R117): all results become visible at once, the hold is released, the demands of the end
are raised, and a retired part begins its erase. -/
def State.commitEnded (s : State) (c : Commit) : State :=
  let sequence := s.renewal.sequence
  let r : Renewal := { Renewal.idle with
    result := ⟨sequence, .done, s.renewal.result.steps⟩, lastCommitted := sequence }
  let s := (s.takeAll c.slots).takeLifecycle c.lifecycle
  let s := { s with renewal := r, commit := none, arbiter := { s.arbiter with hold := .none } }
  let s := s.raiseBatch .batchDone sequence
  if c.lifecycle.any (fun l => decide (l.1 = .retired)) then
    ((c.slots.foldl State.endSlotQuiet s).dropPins.setErase (.at 0 0)).eraseGo
  else c.slots.foldl State.endSlot s

end Sys2Proof.Machine
end

