-- ==== Sys2Proof/Machine/Time.lean ====
section
/-! DEFINITION. The time base (chapter 6): ticks, checkpoints, the second beat, and the deadline events. -/

namespace Sys2Proof.Machine

/-- The checkpoint test (R126): in RUN or FLUSH, with no checkpoint in flight, Tb below LIMIT and Tb − T at most 32, a TIME record
with Tb' = min(T + 64, LIMIT) is handed over and becomes the checkpoint in flight. -/
def State.checkpointTest (s : State) : State :=
  if (s.supply.run = .run ∨ s.supply.run = .flush) ∧ s.time.checkpoint = none ∧ s.time.tb < LIMIT ∧
      s.time.tb ≤ s.time.t + 32 then
    let tb' := min (s.time.t + 64) LIMIT
    State.handOver { s with time := { s.time with checkpoint := some tb' } } (.append (.time tb')) .time
  else s

/-- A tick that advances T (R124): T rises by 1, the checkpoint rule is applied, and the deadlines are evaluated (R131). -/
def State.advanceT (s : State) : State :=
  (State.checkpointTest { s with time := { s.time with t := s.time.t + 1 } }).deadlines

/-- TICK (R124), by the first case of its table. -/
def execTick (s : State) : Host.Outcome State Fault Refusal :=
  if s.supply.run = .starting then .next s
  else if s.time.deferred then .next s
  else if s.time.t = LIMIT then .next s
  else if s.time.t < s.time.tb then .next s.advanceT.settle
  else if s.time.checkpoint.isSome then .next { s with time := { s.time with deferred := true } }
  else .next s

/-- The completion of a TIME record (R127): Tb takes its value, a deferred tick is taken, and the checkpoint test is made. -/
def State.timeWritten (s : State) : State :=
  let tb := match s.time.checkpoint with | some v => v | none => s.time.tb
  let s' := { s with time := { s.time with tb := tb, checkpoint := none, deferred := false } }
  State.checkpointTest (if s.time.deferred then s'.advanceT else s')

/-- The time base at the entry into FAULT (R127): Tb is kept, the checkpoint and a deferred tick are gone. -/
def TimeBase.faulted (t : TimeBase) : TimeBase := { t with checkpoint := none, deferred := false }

/-! ## The staging window (R78, R136) -/

/-- The expiry of the staging window: a staged batch whose count has reached 120 is dropped with reason TIMEOUT. -/
def State.windowExpiry (s : State) : State :=
  if s.renewal.state = .staging ∧ 120 ≤ s.renewal.windowCount then s.refuseBatch .timeout else s

/-- The second beat at the renewal engine (R78): in STAGING the window count rises by 1. -/
def State.beat (s : State) : State :=
  if s.renewal.state = .staging then { s with renewal := { s.renewal with windowCount := s.renewal.windowCount + 1 } } else s

/-- SECOND_BEAT (R123): in STAGING the staging window count rises by 1, and the window expires at the beat that brings it to 120. -/
def execSecondBeat (s : State) : Host.Outcome State Fault Refusal := .next s.beat.windowExpiry

/-- STAGING_WINDOW_EXPIRY (R78). The beat that brings the count to 120 makes this same step, so that as a command of its own it
finds it due only in a state whose count already stands at 120 (log entry 15). -/
def execStagingWindowExpiry (s : State) : Host.Outcome State Fault Refusal := .next s.windowExpiry

/-! ## The deadline events (R19, R104, R132 to R134)

A tick that advances T evaluates every deadline at its own event (R131); as commands of their own these steps are due only where
a deadline has been met and has not been acted on (log entry 15). -/

/-- One slot's deadline event, made where the table evaluates deadlines. -/
def State.slotEvent (s : State) (slot : Nat) (f : Fin 24 → State) : State :=
  match slotIndex slot with
  | some i => if s.evaluates then f i else s
  | none => s

/-- LIFE_WARNING (R133). -/
def execLifeWarning (slot : Nat) (s : State) : Host.Outcome State Fault Refusal := .next (s.slotEvent slot s.lifeWarning)

/-- EXPIRY (R132). -/
def execExpiry (slot : Nat) (s : State) : Host.Outcome State Fault Refusal := .next (s.slotEvent slot s.expire)

/-- GRACE_END (R134). -/
def execGraceEnd (slot : Nat) (s : State) : Host.Outcome State Fault Refusal := .next (s.slotEvent slot s.endGrace)

/-- PIN_LAPSE (R19): a commit that the lapse lets start may have its hold granted at the same event. -/
def execPinLapse (slot : Nat) (s : State) : Host.Outcome State Fault Refusal :=
  .next (s.slotEvent slot s.lapsePin).settle

/-- SCHEDULED_ACTIVATION (R104). -/
def execScheduledActivation (s : State) : Host.Outcome State Fault Refusal := .next s.scheduledActivation.settle

end Sys2Proof.Machine
end

