-- ==== Sys2Proof/Machine/Startup.lean ====
section
/-! DEFINITION. Start-up (R152 to R157, R169 to R171): scan, rebuild, counters and time, batches, retirement, conditions, end.
Stages 4 and 5 may wait on writes; the events of those writes carry start-up on. -/

namespace Sys2Proof.Machine

/-! ## Stages 1 to 3 -/

/-- What the scan keeps (R152): the valid records, the newest lap, and the open commit with its Tc. -/
structure Scan where
  records : List Placed
  newest : BitVec 8
  opened : Option (Nat × Nat)
  deriving DecidableEq, Repr

/-- The scan over valid records (R152, R153). -/
def scanRecords (records : List Placed) : Scan := ⟨records, newestLap records, openBegin (newestLap records) records⟩

/-- The scan of a ring (R152, R153). -/
def scanRing (ring : List (Nat × RingCell)) : Scan := scanRecords (validRecords ring)

/-- The sequence of the open commit. -/
def Scan.sequence (c : Scan) : Option Nat := c.opened.map Prod.fst

/-- The newest base record that `is` picks (R153). -/
def Scan.newestBase (c : Scan) (is : Body → Bool) : Option Body :=
  (latest c.newest (fun b => is b && !b.ofCommit c.sequence) c.records).map fun e => e.2.body

/-- The newest base record of a key (R153). -/
def Scan.base (c : Scan) (k : RecordKey) : Option Body := c.newestBase fun b => decide (b.key = k)

/-- The C of the newest base CEILING record of a slot and generation (R153). -/
def Scan.ceiling (c : Scan) (i : Fin 24) (generation : Nat) : Option Nat :=
  match c.newestBase fun b => match b with | .ceiling j g _ _ => decide (j = i ∧ g = generation) | _ => false with
  | some (.ceiling _ _ v _) => some v
  | _ => none

/-- The P of the newest base FLOOR record of a slot and generation (R153). -/
def Scan.floor (c : Scan) (i : Fin 24) (generation : Nat) : Option Nat :=
  match c.newestBase fun b => match b with | .floor j g _ _ => decide (j = i ∧ g = generation) | _ => false with
  | some (.floor _ _ v _) => some v
  | _ => none

/-- The journal controller after the scan (R152). -/
def Journal.scanned (j : Journal) : Journal :=
  let c := scanRing j.ring
  let live := (c.records.filter fun e => liveAtScan c.newest c.sequence c.records e).map Prod.fst
  match latest c.newest (fun _ => true) c.records with
  | some (p, r) =>
    { j with queue := [], place := [], failures := 0, live := live,
             writePosition := nextPosition p, lap := nextLap p r.lap }
  | none => { j with queue := [], place := [], failures := 0, live := [], writePosition := 0, lap := 0 }

/-- The restored floors: F = min(P + S − 1, LIMIT) and P (R42); a cell without a FLOOR record takes P = LIMIT (R153). -/
def Scan.floors (c : Scan) (i : Fin 24) (generation stride : Nat) : Nat × Nat :=
  let p := (c.floor i generation).getD LIMIT
  (min (p + stride - 1) LIMIT, p)

/-- A restored CURRENT cell (R24, R32, R42, R153): LIVE, or SPENT where its counter or floor is at its limit, with its marks clear. -/
def Scan.current (c : Scan) (i : Fin 24) (m : SlotMeta) (k : CurrentMeta) : Current :=
  let stride := match m.policy with | some p => p.stride | none => 1
  let counters : Counters :=
    if m.role = .issue then
      let limit := k.limit.getD LIMIT
      let ceiling := (c.ceiling i k.generation).getD limit
      .issue ceiling ceiling limit
    else
      let f := c.floors i k.generation stride
      .floor f.1 f.2
  ⟨k.generation, if counters.atLimit then .spent else .live, k.activation, k.lifetime, counters, k.bank, false, false⟩

/-- A restored PRIOR cell (R42, R153). -/
def Scan.prior (c : Scan) (i : Fin 24) (m : SlotMeta) (k : PriorMeta) : Prior :=
  let stride := match m.policy with | some p => p.stride | none => 1
  let f := c.floors i k.generation stride
  ⟨k.generation, k.activation, f.1, f.2, k.graceEnd, k.bank⟩

/-- A restored slot (R24, R153): a slot without a base SLOT record is EMPTY. -/
def Scan.slot (c : Scan) (i : Fin 24) : Slot :=
  match c.base (.slot i) with
  | some (.slot _ _ m) =>
    { role := m.role, userMap := m.userMap, notifyMap := m.notifyMap, policy := m.policy, pin := none
      current := m.current.map (c.current i m), next := none, prior := m.prior.map (c.prior i m), wait := none }
  | _ => Slot.blank

/-- Whether every present CURRENT and PRIOR of a slot has a valid image in its bank (R154). -/
def State.banksValid (s : State) (i : Fin 24) : Bool :=
  (s.slot i).current.all (fun k => s.journal.validImage i k.bank k.generation) &&
  (s.slot i).prior.all (fun k => s.journal.validImage i k.bank k.generation)

/-- The standing ARM record of an armed batch, where no commit is open (R157). -/
def Scan.arm (c : Scan) : Option (Nat × Option Nat × List StepOutcome) :=
  if c.opened.isSome then none
  else
    match latest c.newest (fun _ => true) (c.records.filter fun e => armStands c.newest c.records e) with
    | some (_, ⟨_, .arm q _ tick outcomes, _⟩) => some (q, tick, outcomes)
    | _ => none

/-- The applied steps of a sequence, from its STEP records in index order (R155, R157). -/
def Scan.steps (c : Scan) (sequence : Nat) : List AppliedStep :=
  (List.range 8).filterMap fun i =>
    match latest c.newest (fun b => decide (b.key = .step sequence i)) c.records with
    | some (_, ⟨_, .step _ a, _⟩) => some a
    | _ => none

/-- The tick values of a slot's cells (R129). -/
def Slot.ticks (c : Slot) : List Nat :=
  (match c.current with | some k => [k.activation] | none => []) ++
  (match c.prior with | some k => [k.activation, k.graceEnd] | none => [])

/-- T and Tb without a TIME record (R129): the largest tick value not above LIMIT that start-up applies, or 0. -/
def State.fallbackTime (s : State) (c : Scan) : Nat :=
  let armTick : List Nat := match c.arm with | some (_, some a, _) => [a] | _ => []
  ((((List.finRange 24).flatMap fun i => (s.slot i).ticks) ++ armTick).filter fun v => decide (v ≤ LIMIT)).foldl max 0

/-- The start-up fault mark set where `bad` holds (R170). -/
def State.markIf (s : State) (bad : Bool) : State :=
  if bad then { s with supply := { s.supply with faultMark := true } } else s

/-- The life-cycle state and tick period code taken at stage 2; FACTORY with code 0, and the mark, where the scan finds none
(R153, R173). -/
def State.rebuildLifecycle (s : State) (c : Scan) : State :=
  match c.base .lifecycle with
  | some (.lifecycle l code _) =>
    { s with supply := { s.supply with lifeCycle := l }, time := { s.time with code := code } }
  | _ =>
    State.markIf { s with supply := { s.supply with lifeCycle := .factory }, time := { s.time with code := 0 } } true

/-- Stage 2: the life-cycle state, the slots, and the check of their banks, which are not read in RETIRED (R153, R154). -/
def State.rebuild (s : State) (c : Scan) : State :=
  let t := (s.rebuildLifecycle c).mapSlots fun i _ => c.slot i
  t.markIf (decide (t.supply.lifeCycle ≠ .retired) && !(List.finRange 24).all t.banksValid)

/-- The time base restored (R129): T and Tb at a value, the checkpoint and the deferred tick absent. -/
def TimeBase.restored (b : TimeBase) (t : Nat) : TimeBase := { b with t := t, tb := t, checkpoint := none, deferred := false }

/-- Stage 3 for the time base (R129): T and Tb take the Tb of the newest TIME record. -/
def State.restoreTime (s : State) (c : Scan) : State :=
  match c.base .time with
  | some (.time tb) => { s with time := s.time.restored tb }
  | _ => State.markIf { s with time := s.time.restored (s.fallbackTime c) } true

/-! ## Stage 4 -/

/-- Whether the NEXT image of every INSTALL among the steps is valid (R155, R157). -/
def State.nextsValid (s : State) (steps : List AppliedStep) : Bool :=
  steps.all fun a =>
    match a.part with
    | .install i g _ _ _ _ bank => s.journal.validImage i bank g
    | _ => true

/-- The NEXT cell of an INSTALL step of a restored armed batch, READY (R157). -/
def State.restoreNext (s : State) (a : AppliedStep) : State :=
  match a.part with
  | .install i g life budget _ _ bank => s.setSlot i { s.slot i with next := some ⟨g, true, life, budget, bank⟩ }
  | _ => s

/-- A header restored by start-up: the sequence alone (R99). -/
def Header.restored (sequence : Nat) : Header := ⟨sequence, none, none, []⟩

/-- The restored armed batch (R99, R157). -/
def State.restoreArmed (s : State) (sequence : Nat) (tick : Option Nat) (outcomes : List StepOutcome)
    (steps : List AppliedStep) : State :=
  let r : Renewal := { Renewal.idle with
    state := .armed, header := some (.restored sequence), applied := steps, activationTick := tick,
    result := ⟨sequence, .armed, outcomes⟩ }
  State.markIf (steps.foldl State.restoreNext { s with renewal := r }) (!s.nextsValid steps)

/-- The renewal engine of an open commit (R99): COMMITTING, with the flag set and the result NONE. -/
def Renewal.opened (sequence : Nat) (steps : List AppliedStep) : Renewal :=
  { Renewal.idle with state := .committing, header := some (.restored sequence), applied := steps, activation := true }

/-- Stage 4 up to its first wait (R155, R157): an open commit is computed and its records handed over, unless the fault mark is
set; otherwise an armed batch is restored. -/
def State.batches (s : State) (c : Scan) : State :=
  match c.opened with
  | some (q, tc) =>
    let steps := c.steps q
    let t := State.markIf { s with renewal := .opened q steps } (!s.nextsValid steps)
    if t.supply.faultMark then t
    else State.computeCommit { t with commit := some ⟨tc, true, .begin, [], none, []⟩ }
  | none =>
    match c.arm with
    | some (q, tick, outcomes) => s.restoreArmed q tick outcomes (c.steps q)
    | none => s

/-! ## Stages 5 to 7 -/

/-- A slot's conditions at stage 6, with its demands in the order of R186. -/
def State.slotConditions (s : State) (i : Fin 24) : State :=
  let s := s.evaluateLow i
  let s := match (s.slot i).current with
    | some k => if k.state = CellState.spent then s.raiseSlot .spent i k.generation else s
    | none => s
  ((s.lifeWarning i).expire i).endGrace i

/-- Stage 6 (R169, R186): RESTARTED; in RETIRED nothing more; otherwise the conditions of the slots, the flag of an armed batch
whose tick is reached, and BATCH_ARMED. -/
def State.conditions (s : State) : State :=
  let s := s.raise .both ⟨.restarted, none, none, none, s.now⟩
  if s.supply.lifeCycle = .retired then s
  else
    let s := (List.finRange 24).foldl State.slotConditions s
    if s.renewal.state = .armed then
      let reached := s.renewal.activationTick.any fun a => decide (a ≤ s.now)
      State.raiseBatch { s with renewal := { s.renewal with activation := reached } } .batchArmed s.renewal.sequence
    else s

/-- The run state at the end of start-up (R171). -/
def Supply.endState (p : Supply) : RunState := if p.faultMark then .fault else if p.warning then .quiescent else .run

/-- The address of a port whose ADRx is at a level (R189). -/
def portAddress (high : Bool) : BitVec 7 := if high then 0x4B else 0x4A

/-- Stage 7 (R171, R189): the run state is set, the timers start, ADRx is sampled, and in RUN the checkpoint test and the commit
start test are made. -/
def State.endStartup (s : State) : State :=
  let ending := s.supply.endState
  let s := { s with
    supply := { s.supply with run := ending }
    time := { s.time with tickTimer := .running, beatTimer := .running }
    portM := { s.portM with address := portAddress s.supply.adrM }
    portL := { s.portL with address := portAddress s.supply.adrL } }
  if ending = .run then s.checkpointTest.commitStart else s

/-- Stages 6 and 7. -/
def State.finish (s : State) : State := s.conditions.endStartup

/-- Stage 5, and the stages after it where no write of the erase is handed over (R169, R177). -/
def State.retirement (s : State) : State :=
  if s.supply.lifeCycle = .retired then
    let s := (s.setErase (.at 0 0)).eraseGo
    if s.eraseBusy then s else s.finish
  else s.finish

/-- The COMMIT_END of a roll-forward (R155): the new contents take effect together, the sequence becomes the last committed, the
engine is IDLE with result NONE, and start-up goes on with stage 5. -/
def State.rolledForward (s : State) (c : Commit) : State :=
  let sequence := s.renewal.sequence
  let s := (s.takeAll c.slots).takeLifecycle c.lifecycle
  State.retirement { s with renewal := { Renewal.idle with lastCommitted := sequence }, commit := none }

/-- Start-up from its scan (R169), on the state an abort has left. -/
def State.startUp (s : State) : State :=
  let c := scanRing s.journal.ring
  let s := { s with journal := s.journal.scanned, supply := { s.supply with faultMark := false } }
  let s := ((s.rebuild c).restoreTime c).batches c
  if s.commit.isSome then s else s.retirement

end Sys2Proof.Machine
end

