-- ==== Sys2Proof/Machine/Supply.lean ====
section
/-! DEFINITION. The supply monitor (chapter 8): the power-fail warning, FAULT, the abort, and the causes of start-up. -/

namespace Sys2Proof.Machine

/-! ## The power-fail warning (R163 to R166) -/

/-- A port that stops acknowledging its address with a write frame open has its error latch set (R162, R191, R199). -/
def PortRecord.silenced (r : PortRecord) : PortRecord := if r.framing = .write then { r with latch := true } else r

/-- Both ports stop acknowledging their addresses. -/
def State.silencePorts (s : State) : State := { s with portM := s.portM.silenced, portL := s.portL.silenced }

/-- The level of PFWN as last taken. -/
def State.setWarning (s : State) (w : Bool) : State := { s with supply := { s.supply with warning := w } }

/-- The run state set. -/
def State.setRun (s : State) (r : RunState) : State := { s with supply := { s.supply with run := r } }

/-- A requested hold that is not yet granted is withdrawn (R109). -/
def State.withdrawHold (s : State) : State :=
  { s with arbiter := { s.arbiter with hold := if s.arbiter.hold = .requested then .none else s.arbiter.hold } }

/-- The batch abandoned at the warning, where it is before its ARM record (R97). -/
def State.abandonBatch (s : State) : State := if s.renewal.beforeArm then s.refuseBatch .powerWarning else s

/-- The entry to FLUSH (R163). -/
def State.enterFlush (s : State) : State := (s.setRun .flush).silencePorts.abandonBatch.withdrawHold.settle

/-- PFWN_ASSERT (R163, R166). -/
def execPfwnAssert (s : State) : Host.Outcome State Fault Refusal :=
  if s.supply.warning then .next s
  else
    match s.supply.run with
    | .run => .next (s.setWarning true).enterFlush
    | .fault => .next (s.setWarning true).silencePorts
    | .starting => .next (s.setWarning true)
    | .flush => .next (s.setWarning true)
    | .quiescent => .next (s.setWarning true)

/-- The erase hands its next item over at a return to RUN, unless one is still with the controller (R165, R177). -/
def State.eraseResume (s : State) : State := if s.eraseBusy then s else s.eraseGo

/-- The return to RUN (R165). -/
def State.returnToRun (s : State) : State := (s.setRun .run).checkpointTest.commitStart.eraseResume.settle

/-- PFWN_RELEASE (R165, R166). -/
def execPfwnRelease (s : State) : Host.Outcome State Fault Refusal :=
  if s.supply.warning then
    match s.supply.run with
    | .flush => .next (s.setWarning false).returnToRun
    | .quiescent => .next (s.setWarning false).returnToRun
    | .run => .next (s.setWarning false)
    | .fault => .next (s.setWarning false)
    | .starting => .next (s.setWarning false)
  else .next s

/-! ## FAULT (R58, R98, R118, R127, R150, R167) -/

/-- A CANCEL that waits on its ARM or DISARM record is refused FAULT (R96, R98). -/
def State.faultCancel (s : State) : State :=
  match s.canceller with
  | some p => s.refuse p .fault
  | none => s

/-- The renewal engine at the entry into FAULT (R98, R107, R118): a batch in STAGING or CHECKING is refused, its ARM record having
been dropped; an armed batch stays and its requested hold is withdrawn; a commit stops and its hold is released. -/
def State.faultBatch (s : State) : State :=
  match s.renewal.state with
  | .staging => s.refuseBatch .fault
  | .checking => s.refuseBatch .fault
  | .armed => s.withdrawHold
  | .committing => { s with commit := none, arbiter := { s.arbiter with hold := .none } }
  | .idle => s

/-- The journal controller with every write dropped (R150); the write position and the lap count stay. -/
def Journal.dropped (j : Journal) : Journal := { j with queue := [], place := [], failures := 0 }

/-- The entry into FAULT from RUN or FLUSH (R167). -/
def State.enterFault (s : State) : State :=
  let s := { s.setRun .fault with journal := s.journal.dropped, time := s.time.faulted }
  ((List.finRange 24).foldl State.faultWait s).faultBatch.faultCancel.settle

/-- A double write failure during STARTING (R156, R170, R177): the fault mark is set and every write dropped; a roll-forward leaves
its commit open, an erase keeps its progress, and start-up goes on to its end. -/
def State.startupFault (s : State) : State :=
  let rolling := s.commit.isSome
  let s := { s.markIf true with journal := s.journal.dropped, commit := none }
  if rolling then s.retirement else s.finish

/-! ## The abort and the causes of start-up (R151, R168) -/

/-- The abort of every block (R168), with the pins as given and the write being made left as `cut` says (R151). -/
def State.abort (s : State) (cut : Cut) (pins : Supply) : State :=
  let j := s.journal.cut cut
  .aborted s.pending j.ring j.banks pins

/-- RSTN_LOW (R168). -/
def execRstnLow (cut : Cut) (s : State) : Host.Outcome State Fault Refusal :=
  if s.supply.rstnLow then .next s else .next (s.abort cut { s.supply with rstnLow := true })

/-- SUPPLY_LOSS (R168). -/
def execSupplyLoss (cut : Cut) (s : State) : Host.Outcome State Fault Refusal :=
  if s.supply.inRange then .next (s.abort cut { s.supply with inRange := false }) else .next s

/-- The stages of start-up begin where RSTN is high with the supply in range (R168). -/
def State.beginStartup (s : State) (pins : Supply) : State :=
  let t := { s with supply := pins }
  if pins.inRange ∧ pins.rstnLow = false then t.startUp.settle else t

/-- RSTN_RELEASE (R168, R169). -/
def execRstnRelease (adrM adrL : Bool) (s : State) : Host.Outcome State Fault Refusal :=
  if s.supply.rstnLow then
    .next (s.beginStartup { s.supply with rstnLow := false, adrM := adrM, adrL := adrL })
  else .next s

/-- SUPPLY_RETURN (R168). -/
def execSupplyReturn (adrM adrL : Bool) (s : State) : Host.Outcome State Fault Refusal :=
  if s.supply.inRange then .next s
  else .next (s.beginStartup { s.supply with inRange := true, adrM := adrM, adrL := adrL })

end Sys2Proof.Machine
end

