-- ==== Sys2Proof/Machine/Writes.lean ====
section
/-! DEFINITION. The write queue in service (chapter 7): completion, failure, carry-forward. -/

namespace Sys2Proof.Machine

/-- Whether a record that succeeds is live of its own: a STEP only while its batch is in the records stage (R145, R147), the FLOOR
of a slot write wait only while its cell is there (R55). -/
def State.keeps (s : State) (e : Entry) : Bool :=
  match e.requester with
  | .checkStep attached _ => attached
  | .engine i =>
    (match (s.slot i).wait with
     | some ⟨.floor g _ position, _, _⟩ => s.holdsCell i g position
     | _ => true)
  | _ => true

/-- The store and the live map when the entry in service succeeds (R140, R144, R147). -/
def State.storeEffect (s : State) (e : Entry) : Journal :=
  match e.write with
  | .append b => s.journal.appended b (s.keeps e)
  | .bankWrite i k g key => s.journal.writeBank i k g key
  | .bankErase i k => s.journal.eraseBank i k

/-- What the requester of a completed write does (R144). -/
def State.requesterActs (s : State) (e : Entry) : State :=
  match e.requester with
  | .engine i => s.endWait i
  | .checkFloor attached =>
    (match e.write with
     | .append (.floor _ g v _) =>
       let t := s.takeSequence g v
       if attached then t.beginSteps else t
     | _ => s)
  | .checkBank attached i => if attached then s.imageWritten i else s
  | .checkStep attached last => if attached && last then s.handArm else s
  | .checkArm => s.armed
  | .commitBegin => s.computeCommit
  | .commitRecord last => if last then s.handEnd else s
  | .commitEnd =>
    (match s.commit with
     | some c => if c.rolling then s.rolledForward c else s.commitEnded c
     | none => s)
  | .disarm => s.disarmed
  | .time => s.timeWritten
  | .erase =>
    let t := s.eraseDone.eraseGo
    if t.supply.run = .starting ∧ t.eraseBusy = false then t.finish else t

/-- What a requester does when its write has left the place list for the queue (R143): checking and the commit hand their next
writes over. -/
def State.placedActs (s : State) (e : Entry) : State :=
  match e.requester with
  | .commitRecord _ => s.commitPlaced
  | r => s.checkingPlaced r

/-- Whether the entry in service waits for a copy before its own record can be written (R146). -/
def State.copyDue (s : State) (e : Entry) : Bool :=
  match e.write with
  | .append _ => s.journal.toCopy.isSome
  | _ => false

/-- The completion of the entry in service (R144): it leaves the queue, the freed place goes to the oldest write of the place list,
its requester acts, then the requester of the write that entered the queue. -/
def State.completeEntry (s : State) (e : Entry) (rest : List Entry) : State :=
  let j := s.storeEffect e
  let entered := s.journal.place.head?
  let t := { s with journal := Journal.refilled { j with queue := rest, failures := 0 } }
  let t := t.requesterActs e
  match entered with
  | some x => t.placedActs x
  | none => t

/-- WRITE_COMPLETE (R144). -/
def execWriteComplete (s : State) : Host.Outcome State Fault Refusal :=
  match s.journal.queue with
  | [] => .next s
  | e :: rest => if s.copyDue e then .next s else .next (s.completeEntry e rest).settle

/-- The store at the first failure of the entry in service (R148, R149). -/
def Journal.firstFailure (j : Journal) (w : Write) : Journal :=
  match w with
  | .append _ => j.appendFailed
  | .bankWrite i k _ _ => j.spoilBank i k
  | .bankErase i k => j.spoilBank i k

/-- The store at the second failure: what was written is spoiled, and the write position stays (R150). -/
def Journal.secondFailure (j : Journal) (w : Write) : Journal :=
  match w with
  | .append _ => j.spoil
  | .bankWrite i k _ _ => j.spoilBank i k
  | .bankErase i k => j.spoilBank i k

/-- WRITE_FAILURE (R148 to R150): the first failure spoils and counts; the second enters FAULT, or in STARTING sets the fault mark. -/
def execWriteFailure (s : State) : Host.Outcome State Fault Refusal :=
  match s.journal.queue with
  | [] => .next s
  | e :: _ =>
    if s.journal.failures = 0 then
      .next { s with journal := { s.journal.firstFailure e.write with failures := 1 } }
    else
      let t := { s with journal := s.journal.secondFailure e.write }
      if s.supply.run = .starting then .next t.startupFault.settle else .next t.enterFault

/-- CARRY_FORWARD (R146): the copy being made for the append in service succeeds, and the write position moves on. -/
def execCarryForward (s : State) : Host.Outcome State Fault Refusal :=
  match s.journal.queue with
  | e :: _ =>
    (match e.write, s.journal.toCopy with
     | .append _, some r => .next { s with journal := s.journal.copied r }
     | _, _ => .next s)
  | [] => .next s

end Sys2Proof.Machine
end

