-- ==== Sys2Proof/Machine/Replies.lean ====
section
/-! DEFINITION. The reply layouts of chapter 11 for SLOT_STATUS, PART_STATUS, READ_DEMAND and BATCH_RESULT. -/

namespace Sys2Proof.Machine

/-- A block of an optional field: its bytes where it is present (R203). -/
def optBytes {α : Type} (f : α → List Byte) : Option α → List Byte
  | some a => f a
  | none => []

/-- The policy block, 9 bytes. -/
def Policy.bytes (p : Policy) : List Byte :=
  beBytes 2 p.stride ++ beBytes 1 p.warnStrides ++ beBytes 2 p.lifeWarn ++ beBytes 2 p.grace ++ beBytes 1 p.pinTicks ++
    [p.continuation.code]

/-- The pin block: holder port map, pinned generation, pin end. -/
def Pin.bytes (k : Pin) : List Byte := (PortSet.only k.holder).code :: k.reply

/-- The counters of a CURRENT block: n, C, Lc, or F, P. -/
def Counters.bytes : Counters → List Byte
  | .issue n c l => beBytes 4 n ++ beBytes 4 c ++ beBytes 4 l
  | .floor f p => beBytes 4 f ++ beBytes 4 p

/-- The CURRENT block. -/
def Current.bytes (k : Current) : List Byte :=
  beBytes 2 k.generation ++ [k.state.code] ++ beBytes 4 k.activation ++ [flagByte [k.lifetime.isSome]] ++
    optBytes (beBytes 3) k.lifetime ++ k.counters.bytes

/-- The NEXT block. -/
def Next.bytes (k : Next) : List Byte :=
  beBytes 2 k.generation ++ [k.stateCode, flagByte [k.lifetime.isSome, k.budget.isSome]] ++
    optBytes (beBytes 3) k.lifetime ++ optBytes (beBytes 3) k.budget

/-- The PRIOR block, 20 bytes. -/
def Prior.bytes (k : Prior) : List Byte :=
  beBytes 2 k.generation ++ [graceCode] ++ beBytes 4 k.activation ++ beBytes 4 k.f ++ beBytes 4 k.persisted ++
    beBytes 5 k.graceEnd

/-- The SLOT_STATUS reply: no key bytes and no bank map (R21). -/
def slotStatusReply (i : Fin 24) (c : Slot) : List Byte :=
  [BitVec.ofNat 8 i.val, c.role.code, c.userMap.code, c.notifyMap.code,
    flagByte [c.policy.isSome, c.pin.isSome, c.current.isSome, c.next.isSome, c.prior.isSome]] ++
  optBytes Policy.bytes c.policy ++ optBytes Pin.bytes c.pin ++ optBytes Current.bytes c.current ++
  optBytes Next.bytes c.next ++ optBytes Prior.bytes c.prior

/-- The PART_STATUS reply (R201). -/
def State.partStatusReply (s : State) : List Byte :=
  [s.supply.lifeCycle.code, s.supply.run.code] ++ beBytes 4 s.time.t ++ [BitVec.ofNat 8 s.time.code, s.renewal.state.code,
    flagByte [s.f0.isSome]] ++ optBytes (beBytes 4) s.f0 ++ [s.portM.lastRefusal.code, s.portL.lastRefusal.code]

/-- A demand entry as READ_DEMAND reports it; slot and generation stand together under flag bit 0. -/
def Demand.bytes (d : Demand) : List Byte :=
  [d.kind.code, flagByte [d.slot.isSome, d.sequence.isSome]] ++
  (match d.slot, d.generation with
   | some i, some g => BitVec.ofNat 8 i.val :: beBytes 2 g
   | some i, none => BitVec.ofNat 8 i.val :: beBytes 2 0
   | none, _ => []) ++
  optBytes (beBytes 4) d.sequence ++ beBytes 4 d.stamp

/-- The READ_DEMAND reply: the count left, and the entry removed (R182). -/
def readDemandReply : List Demand → List Byte
  | [] => [0]
  | d :: rest => BitVec.ofNat 8 rest.length :: d.bytes

/-- The reason fields of a BATCH_RESULT reply with their flag byte. -/
def BatchOutcome.reasonBytes : BatchOutcome → List Byte
  | .refused (.stepFailed i r) => [flagByte [true, true], (BatchReason.stepFailed i r).code, BitVec.ofNat 8 i, r.code]
  | .refused r => [flagByte [true, false], r.code]
  | _ => [flagByte [false, false]]

/-- The BATCH_RESULT reply (R93). -/
def BatchResult.bytes (r : BatchResult) : List Byte :=
  beBytes 4 r.sequence ++ [r.outcome.code] ++ r.outcome.reasonBytes ++ [BitVec.ofNat 8 r.steps.length] ++
    r.steps.map StepOutcome.code

end Sys2Proof.Machine
end

