-- ==== Sys2Proof/Machine/Ports.lean ====
section
/-! DEFINITION. The ports (chapter 10): framing, the taking of a command frame, each command's work at that event, and the
transfers and timeouts of the bus. -/

namespace Sys2Proof.Machine

/-! ## Framing (R190 to R192) -/

/-- A frame that may be taken at its close (R192): latch clear, length byte received, byte count 0. -/
def PortRecord.frameComplete (r : PortRecord) : Bool :=
  decide (r.framing = .write) && !r.latch && decide (r.phase = .length) && decide (r.byteCount = 0)

/-- The port back in IDLE at the end of a transfer. -/
def PortRecord.idled (r : PortRecord) : PortRecord := { r with framing := .idle, busTimer := .stopped }

/-- A frame discarded (R192): BAD_LENGTH is the last refusal and, with no request in flight, the reply. Model's reading: the discard
looks at the request in flight at the close, so it also replaces the reply of a request that was completed between the NACK of the
frame's command byte and its close, of which R193 says that the reply stays to be read (log entry 40). -/
def PortRecord.discarded (r : PortRecord) : PortRecord :=
  { r.idled with
    byteCount := 0, lastRefusal := .badLength,
    reply := match r.request with | none => .reply .badLength [] | some _ => r.reply }

/-- A frame taken (R194): the reply held is discarded. -/
def PortRecord.taken (r : PortRecord) : PortRecord := { r.idled with reply := .notReady }

/-- An open frame that is not taken at its close: without a command byte nothing changes but the framing, else it is discarded. -/
def PortRecord.dropped (r : PortRecord) : PortRecord := if r.phase = .address then r.idled else r.discarded

/-! ## The work of each command at its take (R194) -/

/-- The payload of the frame that a port holds. -/
def State.payload (s : State) (p : Port) : List Byte := (s.port p).buffer.payload

/-- A frame that R202 refuses is completed at once; one that passes goes on with its fields. -/
def State.checked {α : Type} (s : State) (p : Port) (c : Checked α) (k : α → State) : State :=
  match c with
  | .error e => s.refuse p e
  | .ok a => k a

/-- A request handed to the engine arbiter as its port's request (R63, R194). -/
def State.handToArbiter (s : State) (p : Port) (q : Request) : State :=
  let t := s.setPort p { s.port p with request := some q }
  { t with arbiter := t.arbiter.setWaiting p true }

/-- MAKE_TAG at its take. -/
def State.takeMakeTag (s : State) (p : Port) : State :=
  s.checked p (makeTagFrame (s.payload p)) fun f => s.handToArbiter p (.makeTag f.1 f.2)

/-- CHECK_TAG at its take. -/
def State.takeCheckTag (s : State) (p : Port) : State :=
  s.checked p (checkTagFrame (s.payload p)) fun f => s.handToArbiter p (.checkTag f.1 f.2.1 f.2.2.1 f.2.2.2)

/-- PIN at its take. -/
def State.takePin (s : State) (p : Port) : State :=
  s.checked p (pinFrame (s.payload p)) fun i => s.handToArbiter p (.pin i)

/-- UNPIN at its take. -/
def State.takeUnpin (s : State) (p : Port) : State :=
  s.checked p (pinFrame (s.payload p)) fun i => s.handToArbiter p (.unpin i)

/-- SLOT_STATUS at its take (R21). -/
def State.takeSlotStatus (s : State) (p : Port) : State :=
  s.checked p (slotStatusFrame (s.payload p)) fun i => s.complete p .ok (slotStatusReply i (s.slot i))

/-- PART_STATUS at its take (R201). -/
def State.takePartStatus (s : State) (p : Port) : State :=
  s.checked p (emptyFrame (s.payload p)) fun _ => s.complete p .ok s.partStatusReply

/-- READ_DEMAND at its take (R182): the oldest entry of the port's own queue is removed and reported. -/
def State.takeReadDemand (s : State) (p : Port) : State :=
  s.checked p (emptyFrame (s.payload p)) fun _ =>
    (s.setQueue p (s.queue p).tail).complete p .ok (readDemandReply (s.queue p))

/-- The checks of R73 that every batch command passes; the staging window count is set to 0 by a frame from the batch port. -/
def State.batchChecked (s : State) (p : Port) (k : State → State) : State :=
  if s.supply.lifeCycle = .retired then s.refuse p .retired
  else if s.supply.run = .fault then s.refuse p .fault
  else if s.supply.lifeCycle.batchPort ≠ some p then s.refuse p .notPermitted
  else k (if s.renewal.state = .staging then { s with renewal := { s.renewal with windowCount := 0 } } else s)

/-- BATCH_OPEN after the checks of R73 (R74). -/
def State.openBatch (s : State) (p : Port) (h : Header) : State :=
  if s.renewal.state ≠ .idle then s.refuse p .wrongState
  else
    let r : Renewal := { s.renewal with state := .staging, header := some h, buffer := [], windowCount := 0 }
    State.complete { s with renewal := r } p .ok []

/-- BATCH_OPEN at its take. -/
def State.takeBatchOpen (s : State) (p : Port) : State :=
  s.checked p (batchOpenFrame (s.payload p)) fun h => s.batchChecked p fun t => t.openBatch p h

/-- The step count of the batch in the engine. -/
def Renewal.count (r : Renewal) : Nat :=
  match r.header with
  | some h => h.count.getD 0
  | none => 0

/-- The refusal of a step record, the first check of R76 that fails. -/
def Renewal.stepRefusal (r : Renewal) (x : StepRecord) : Option Status :=
  if r.state ≠ .staging then some .wrongState
  else if x.index ≠ r.buffer.length ∨ r.count ≤ r.buffer.length then some .stepOrder
  else if x.part.slot.isSome ∧ r.buffer.any (fun y => decide (y.part.slot = x.part.slot)) = true then some .duplicateSlot
  else if x.part.isLifecycle = true ∧ r.buffer.any (fun y => y.part.isLifecycle) = true then some .duplicateSlot
  else none

/-- BATCH_STEP after the checks of R73 (R76). -/
def State.addStep (s : State) (p : Port) (x : StepRecord) : State :=
  match s.renewal.stepRefusal x with
  | some e => s.refuse p e
  | none => State.complete { s with renewal := { s.renewal with buffer := s.renewal.buffer ++ [x] } } p .ok []

/-- BATCH_STEP at its take. -/
def State.takeBatchStep (s : State) (p : Port) : State :=
  s.checked p (batchStepFrame (s.payload p)) fun x => s.batchChecked p fun t => t.addStep p x

/-- BATCH_CLOSE after the checks of R73 (R77): answered OK, then checking begins. -/
def State.closeBatch (s : State) (p : Port) (tag : Tag) : State :=
  if s.renewal.state ≠ .staging then s.refuse p .wrongState
  else if s.renewal.buffer.length ≠ s.renewal.count then s.refuse p .stepCount
  else
    let r : Renewal := { s.renewal with
      state := .checking, authenticator := some tag, windowCount := 0, result := ⟨s.renewal.sequence, .checking, []⟩ }
    (State.complete { s with renewal := r } p .ok []).beginChecking tag

/-- BATCH_CLOSE at its take. -/
def State.takeBatchClose (s : State) (p : Port) : State :=
  s.checked p (batchCloseFrame (s.payload p)) fun tag => s.batchChecked p fun t => t.closeBatch p tag

/-- BATCH_RESULT at its take (R93). -/
def State.takeBatchResult (s : State) (p : Port) : State :=
  s.checked p (emptyFrame (s.payload p)) fun _ => s.batchChecked p fun t => t.complete p .ok t.renewal.result.bytes

/-- The flag set by ACTIVATE, where the disarm mark is clear (R101). -/
def State.setActivation (s : State) : State :=
  if s.renewal.disarm then s else { s with renewal := { s.renewal with activation := true } }

/-- ACTIVATE after the checks of R73 (R103), the first case of its table that applies. -/
def State.activateBatch (s : State) (p : Port) (q : Nat) : State :=
  match s.renewal.state with
  | .staging => s.refuse p .wrongState
  | .checking => s.refuse p .wrongState
  | .idle => if q = s.renewal.lastCommitted then s.refuse p .tooLate else s.refuse p .wrongState
  | .committing => if q ≠ s.renewal.sequence then s.refuse p .wrongBatch else s.refuse p .tooLate
  | .armed =>
    if q ≠ s.renewal.sequence then s.refuse p .wrongBatch
    else
      let t := s.setActivation.commitStart
      t.complete p (if t.arbiter.hold = .requested then .ok else .deferred) []

/-- ACTIVATE at its take. -/
def State.takeActivate (s : State) (p : Port) : State :=
  s.checked p (sequenceFrame (s.payload p)) fun q => s.batchChecked p fun t => t.activateBatch p q

/-- A CANCEL that waits for its DISARM or ARM record becomes the port's request in flight (R96). -/
def State.awaitCancel (s : State) (p : Port) (q : Nat) : State := s.setPort p { s.port p with request := some (.cancel q) }

/-- CANCEL after the checks of R73 (R94). -/
def State.cancelCommand (s : State) (p : Port) (q : Nat) : State :=
  if s.renewal.state = .idle then s.refuse p .wrongState
  else if q ≠ s.renewal.sequence then s.refuse p .wrongBatch
  else if s.renewal.state = .committing then s.refuse p .tooLate
  else if s.renewal.beforeArm then s.cancelBatch.complete p .ok []
  else if s.renewal.state = .armed then (s.awaitCancel p q).beginDisarm
  else s.awaitCancel p q

/-- CANCEL at its take. -/
def State.takeCancel (s : State) (p : Port) : State :=
  s.checked p (sequenceFrame (s.payload p)) fun q => s.batchChecked p fun t => t.cancelCommand p q

/-! ## Command codes (chapter 11) -/

/-- Command bytes that name a command. -/
def commandCodes : List Byte :=
  [0x10, 0x11, 0x12, 0x13, 0x20, 0x21, 0x22, 0x30, 0x31, 0x32, 0x33, 0x34, 0x35]

/-- A taken frame dealt with by its command byte (R194). -/
def State.dealWith (s : State) (p : Port) (command : Byte) : State :=
  match command.toNat with
  | 0x10 => s.takeMakeTag p
  | 0x11 => s.takeCheckTag p
  | 0x12 => s.takePin p
  | 0x13 => s.takeUnpin p
  | 0x20 => s.takeSlotStatus p
  | 0x21 => s.takePartStatus p
  | 0x22 => s.takeReadDemand p
  | 0x30 => s.takeBatchOpen p
  | 0x31 => s.takeBatchStep p
  | 0x32 => s.takeBatchClose p
  | 0x33 => s.takeBatchResult p
  | 0x34 => s.takeActivate p
  | 0x35 => s.takeCancel p
  | _ => s.refuse p .unknownCommand

/-- A port's complete frame taken at its close, and the arbiter's grants. -/
def State.frameTaken (s : State) (p : Port) : State := s.setPort p (s.port p).taken

/-- The close of an open transfer at a repeated START (R189, R192, R196): a write frame is taken or dropped, a read ends. -/
def State.closeTransfer (s : State) (p : Port) : State :=
  let r := s.port p
  match r.framing with
  | .write =>
    if r.frameComplete then ((s.frameTaken p).dealWith p (r.buffer.command.getD 0)).settle
    else s.setPort p r.dropped
  | .read => s.setPort p r.idled
  | .idle => s
  | .stretch => s

/-! ## The command rows: the STOP that closes a complete frame (log entry 2) -/

/-- The STOP at port `p` where its complete frame carries a command byte that `is` picks; in any other state the command is not
due and nothing changes. -/
def State.atStop (s : State) (p : Port) (is : Byte → Bool) (work : State → State) : State :=
  let r := s.port p
  if r.frameComplete ∧ r.buffer.command.any is = true then (work (s.frameTaken p)).settle else s

/-- MAKE_TAG (R49): code 10h. -/
def execMakeTag (p : Port) (s : State) : Host.Outcome State Fault Refusal :=
  .next (s.atStop p (fun c => c == 0x10) fun t => t.takeMakeTag p)

/-- CHECK_TAG (R51): code 11h. -/
def execCheckTag (p : Port) (s : State) : Host.Outcome State Fault Refusal :=
  .next (s.atStop p (fun c => c == 0x11) fun t => t.takeCheckTag p)

/-- PIN (R15): code 12h. -/
def execPin (p : Port) (s : State) : Host.Outcome State Fault Refusal :=
  .next (s.atStop p (fun c => c == 0x12) fun t => t.takePin p)

/-- UNPIN (R18): code 13h. -/
def execUnpin (p : Port) (s : State) : Host.Outcome State Fault Refusal :=
  .next (s.atStop p (fun c => c == 0x13) fun t => t.takeUnpin p)

/-- SLOT_STATUS (R21): code 20h. -/
def execSlotStatus (p : Port) (s : State) : Host.Outcome State Fault Refusal :=
  .next (s.atStop p (fun c => c == 0x20) fun t => t.takeSlotStatus p)

/-- PART_STATUS (R201): code 21h. -/
def execPartStatus (p : Port) (s : State) : Host.Outcome State Fault Refusal :=
  .next (s.atStop p (fun c => c == 0x21) fun t => t.takePartStatus p)

/-- READ_DEMAND (R182): code 22h. -/
def execReadDemand (p : Port) (s : State) : Host.Outcome State Fault Refusal :=
  .next (s.atStop p (fun c => c == 0x22) fun t => t.takeReadDemand p)

/-- BATCH_OPEN (R74): code 30h. -/
def execBatchOpen (p : Port) (s : State) : Host.Outcome State Fault Refusal :=
  .next (s.atStop p (fun c => c == 0x30) fun t => t.takeBatchOpen p)

/-- BATCH_STEP (R76): code 31h. -/
def execBatchStep (p : Port) (s : State) : Host.Outcome State Fault Refusal :=
  .next (s.atStop p (fun c => c == 0x31) fun t => t.takeBatchStep p)

/-- BATCH_CLOSE (R77): code 32h. -/
def execBatchClose (p : Port) (s : State) : Host.Outcome State Fault Refusal :=
  .next (s.atStop p (fun c => c == 0x32) fun t => t.takeBatchClose p)

/-- BATCH_RESULT (R93): code 33h. -/
def execBatchResult (p : Port) (s : State) : Host.Outcome State Fault Refusal :=
  .next (s.atStop p (fun c => c == 0x33) fun t => t.takeBatchResult p)

/-- ACTIVATE (R103): code 34h. -/
def execActivate (p : Port) (s : State) : Host.Outcome State Fault Refusal :=
  .next (s.atStop p (fun c => c == 0x34) fun t => t.takeActivate p)

/-- CANCEL (R94): code 35h. -/
def execCancel (p : Port) (s : State) : Host.Outcome State Fault Refusal :=
  .next (s.atStop p (fun c => c == 0x35) fun t => t.takeCancel p)

/-- UNKNOWN_COMMAND (R194): any command byte that names no command, whatever its k and payload (R202). -/
def execUnknownCommand (p : Port) (s : State) : Host.Outcome State Fault Refusal :=
  .next (s.atStop p (fun c => !commandCodes.contains c) fun t => t.refuse p .unknownCommand)

/-- FRAME_DISCARD (R192): a STOP at port `p` that takes no frame. An open frame that is not complete is dropped, and a read ends;
a complete frame is taken by its own row and is left here. -/
def execFrameDiscard (p : Port) (s : State) : Host.Outcome State Fault Refusal :=
  let r := s.port p
  match r.framing with
  | .write => if r.frameComplete then .next s else .next (s.setPort p r.dropped)
  | .read => .next (s.setPort p r.idled)
  | .idle => .next s
  | .stretch => .next s

/-! ## Transfers (R189, R196, R197) -/

/-- The port after a START: the latch is cleared (R191). -/
def PortRecord.started (r : PortRecord) : PortRecord := { r with latch := false }

/-- An address byte that the port does not acknowledge (R189): SDA stays high, and the port takes no part in the transfer. -/
def PortRecord.ignoring (r : PortRecord) : PortRecord := { r.idled with answer := some .nack }

/-- The address byte as it was received: the address and the direction bit (1 for a read). -/
def addressByte (addr : BitVec 7) (read : Bool) : Byte := addr ++ BitVec.ofBool read

/-- The acknowledged address of a write (R189): WRITE, with the bus timer started. The frame receive buffer is written only while no
request is in flight (R190). -/
def PortRecord.writing (r : PortRecord) (addr : BitVec 7) : PortRecord :=
  { r with
    framing := .write, busTimer := .running, phase := .address, byteCount := 0, answer := some .ack,
    buffer := match r.request with
      | none => { r.buffer with address := some (addressByte addr false) }
      | some _ => r.buffer }

/-- The acknowledged address of a read (R196, R197): the reply's bytes are fixed, to be sent as `PortRecord.sends` gives, or the port
stretches. -/
def PortRecord.reading (r : PortRecord) : PortRecord :=
  match r.reply with
  | .reply st payload =>
    { r with framing := .read, busTimer := .running, answer := some .ack, sending := replyBytes st payload }
  | .noReply => { r with framing := .read, busTimer := .running, answer := some .ack, sending := replyBytes .noReply [] }
  | .notReady =>
    { r with framing := .stretch, busTimer := .stopped, stretchTimer := .running, answer := some .ack, sending := [] }

/-- What the port sends as byte `n` of the read in progress (R196, R197): the bytes fixed at the start of the read, PENDING's among
them, and FFh for each further byte that the master clocks. Outside READ it sends none. -/
def PortRecord.sends (r : PortRecord) (n : Nat) : Option Byte :=
  if r.framing = .read then some (r.sending.getD n 0xFF) else none

/-- WRITE_TRANSFER (R189): a START and an address byte with the write bit. No START comes while the port holds SCL (R197). -/
def execWriteTransfer (p : Port) (addr : BitVec 7) (s : State) : Host.Outcome State Fault Refusal :=
  if (s.port p).framing = .stretch then .next s
  else
    let t := s.closeTransfer p
    let r := (t.port p).started
    .next (t.setPort p (if addr = r.address ∧ t.acknowledges = true then r.writing addr else r.ignoring))

/-- READ_TRANSFER (R196): a START and an address byte with the read bit. -/
def execReadTransfer (p : Port) (addr : BitVec 7) (s : State) : Host.Outcome State Fault Refusal :=
  if (s.port p).framing = .stretch then .next s
  else
    let t := s.closeTransfer p
    let r := (t.port p).started
    .next (t.setPort p (if addr = r.address ∧ t.acknowledges = true then r.reading else r.ignoring))

/-! ## Bytes of a write (R190) -/

/-- A byte answered ACK. -/
def PortRecord.ack (r : PortRecord) : PortRecord := { r with answer := some .ack }

/-- A byte answered NACK, with the latch set. -/
def PortRecord.nack (r : PortRecord) : PortRecord := { r with answer := some .nack, latch := true }

/-- The command byte, with the latch clear. -/
def PortRecord.commandByte (r : PortRecord) (b : Byte) : PortRecord :=
  match r.request with
  | some _ => r.nack
  | none => { r.ack with buffer := { r.buffer with command := some b, length := none, payload := [] } }

/-- The length byte, with the latch clear. -/
def PortRecord.lengthByte (r : PortRecord) (b : Byte) : PortRecord :=
  if 224 < b.toNat then r.nack
  else { r.ack with byteCount := b.toNat, buffer := { r.buffer with length := some b } }

/-- A payload byte, with the latch clear. -/
def PortRecord.payloadByte (r : PortRecord) (b : Byte) : PortRecord :=
  if r.byteCount = 0 then r.nack
  else { r.ack with byteCount := r.byteCount - 1, buffer := { r.buffer with payload := r.buffer.payload ++ [b] } }

/-- How far the frame has come once its next byte has arrived, stored or not. -/
def RxPhase.next : RxPhase → RxPhase
  | .address => .command
  | .command => .length
  | .length => .length

/-- A byte of the open frame (R190), by the first row of its table that applies; the bus timer restarts (R198). -/
def PortRecord.byteIn (r : PortRecord) (b : Byte) : PortRecord :=
  let r' : PortRecord := { r with phase := r.phase.next, busTimer := .running }
  if r.latch then r'.nack
  else
    match r.phase with
    | .address => r'.commandByte b
    | .command => r'.lengthByte b
    | .length => r'.payloadByte b

/-- WRITE_BYTE (R190): the ninth clock of a byte in WRITE; outside WRITE the port ignores the bus (R189, R198). -/
def execWriteByte (p : Port) (b : Byte) (s : State) : Host.Outcome State Fault Refusal :=
  if (s.port p).framing = .write then .next (s.setPort p ((s.port p).byteIn b)) else .next s

/-! ## Timeouts (R197, R198) -/

/-- The stretch timer at 20 ms (R197): SCL is released and the read sends PENDING with m = 0, then the filler of `PortRecord.sends`. -/
def PortRecord.stretchEnded (r : PortRecord) : PortRecord :=
  { r with framing := .read, stretchTimer := .stopped, busTimer := .running, sending := replyBytes .pending [] }

/-- STRETCH_TIMEOUT (R197). -/
def execStretchTimeout (p : Port) (s : State) : Host.Outcome State Fault Refusal :=
  if (s.port p).framing = .stretch then .next (s.setPort p (s.port p).stretchEnded) else .next s

/-- BUS_TIMEOUT (R198): an open write frame is dropped, complete or not; a read ends. -/
def execBusTimeout (p : Port) (s : State) : Host.Outcome State Fault Refusal :=
  let r := s.port p
  match r.framing with
  | .write => .next (s.setPort p r.dropped)
  | .read => .next (s.setPort p r.idled)
  | .idle => .next s
  | .stretch => .next s

end Sys2Proof.Machine
end

