-- ==== Sys2Proof/Machine/Dispatch.lean ====
section
/-! DEFINITION. The meaning of each command, one arm per constructor. -/

namespace Sys2Proof.Machine

/-- The effect of a command on everything but the queue of waiting commands. -/
def exec (i : Instr) (s : State) : Host.Outcome State Fault Refusal :=
  match i with
  | .makeTag p => Sys2Proof.Machine.execMakeTag p s
  | .checkTag p => Sys2Proof.Machine.execCheckTag p s
  | .pin p => Sys2Proof.Machine.execPin p s
  | .unpin p => Sys2Proof.Machine.execUnpin p s
  | .slotStatus p => Sys2Proof.Machine.execSlotStatus p s
  | .partStatus p => Sys2Proof.Machine.execPartStatus p s
  | .readDemand p => Sys2Proof.Machine.execReadDemand p s
  | .batchOpen p => Sys2Proof.Machine.execBatchOpen p s
  | .batchStep p => Sys2Proof.Machine.execBatchStep p s
  | .batchClose p => Sys2Proof.Machine.execBatchClose p s
  | .batchResult p => Sys2Proof.Machine.execBatchResult p s
  | .activate p => Sys2Proof.Machine.execActivate p s
  | .cancel p => Sys2Proof.Machine.execCancel p s
  | .unknownCommand p => Sys2Proof.Machine.execUnknownCommand p s
  | .frameDiscard p => Sys2Proof.Machine.execFrameDiscard p s
  | .readTransfer p addr => Sys2Proof.Machine.execReadTransfer p addr s
  | .stretchTimeout p => Sys2Proof.Machine.execStretchTimeout p s
  | .busTimeout p => Sys2Proof.Machine.execBusTimeout p s
  | .issue => Sys2Proof.Machine.execIssue s
  | .tagComparison => Sys2Proof.Machine.execTagComparison s
  | .writeComplete => Sys2Proof.Machine.execWriteComplete s
  | .writeFailure => Sys2Proof.Machine.execWriteFailure s
  | .carryForward => Sys2Proof.Machine.execCarryForward s
  | .tick => Sys2Proof.Machine.execTick s
  | .secondBeat => Sys2Proof.Machine.execSecondBeat s
  | .stagingWindowExpiry => Sys2Proof.Machine.execStagingWindowExpiry s
  | .lifeWarning slot => Sys2Proof.Machine.execLifeWarning slot s
  | .expiry slot => Sys2Proof.Machine.execExpiry slot s
  | .graceEnd slot => Sys2Proof.Machine.execGraceEnd slot s
  | .pinLapse slot => Sys2Proof.Machine.execPinLapse slot s
  | .scheduledActivation => Sys2Proof.Machine.execScheduledActivation s
  | .authenticatorCheck => Sys2Proof.Machine.execAuthenticatorCheck s
  | .unwrap => Sys2Proof.Machine.execUnwrap s
  | .pfwnAssert => Sys2Proof.Machine.execPfwnAssert s
  | .pfwnRelease => Sys2Proof.Machine.execPfwnRelease s
  | .rstnLow cut => Sys2Proof.Machine.execRstnLow cut s
  | .supplyLoss cut => Sys2Proof.Machine.execSupplyLoss cut s
  | .rstnRelease adrM adrL => Sys2Proof.Machine.execRstnRelease adrM adrL s
  | .supplyReturn adrM adrL => Sys2Proof.Machine.execSupplyReturn adrM adrL s
  | .writeTransfer p addr => Sys2Proof.Machine.execWriteTransfer p addr s
  | .writeByte p byte => Sys2Proof.Machine.execWriteByte p byte s

end Sys2Proof.Machine
end

