-- ==== Sys2Proof/Safety.lean ====
section
/-! DEFINITION. What claims call lawful: the laws that the manual gives the demand queues, the time base, the store and write
queue, and the ports, and the state in which the arbiter has nothing to do. -/

namespace Sys2Proof.Machine

/-- The law of a demand queue (R178, R181): at most 16 entries, no two with the same kind and slot, QUEUE_FULL only at the end, and a
16th entry is always QUEUE_FULL. -/
def demandsLawful (q : List Demand) : Prop :=
  q.length ≤ 16 ∧ q.Pairwise (fun a b => a.same b = false) ∧ (∀ d ∈ q.dropLast, d.kind ≠ .queueFull) ∧
  (q.length = 16 → ∃ d ∈ q.getLast?, d.kind = .queueFull)

/-- Both demand queues keep the law. -/
def State.DemandsLawful (s : State) : Prop := demandsLawful s.queueM ∧ demandsLawful s.queueL

/-- The law of part time (R124, R125, R126): T does not exceed Tb, a checkpoint in flight carries a larger bound, and a tick is deferred
only while one is in flight. -/
def TimeBase.Lawful (b : TimeBase) : Prop :=
  b.t ≤ b.tb ∧ (∀ v ∈ b.checkpoint, b.tb < v) ∧ (b.deferred = true → b.checkpoint.isSome = true)

/-- The canonical form of the nonvolatile store (R137): the ring lists positions 0 to 511 and the banks list banks 0 to 71, each in
strictly rising order, so that equal stores are equal data. -/
def Journal.Canonical (j : Journal) : Prop :=
  rising j.ring = true ∧ keysBelow 512 j.ring = true ∧ rising j.banks = true ∧ keysBelow 72 j.banks = true

/-- The bounds of the journal controller (R142): 0 to 8 entries in the queue, a write in the place list only while the queue is full,
the write position on the ring, and at most one failure counted. -/
def Journal.Bounded (j : Journal) : Prop :=
  j.queue.length ≤ 8 ∧ (j.place = [] ∨ j.queue.length = 8) ∧ j.writePosition < 512 ∧ j.failures ≤ 1

/-- The law of the journal controller and its store. -/
def Journal.Lawful (j : Journal) : Prop := j.Canonical ∧ j.Bounded

/-- The law of a port record (R188, R197, R198): the byte count is 0 to 224, the bus timer runs in WRITE and READ and the stretch timer in
STRETCH, and the reply buffer is NOT_READY while a request is in flight. -/
def PortRecord.Lawful (r : PortRecord) : Prop :=
  r.byteCount ≤ 224 ∧
  (r.busTimer = .running ↔ r.framing = .write ∨ r.framing = .read) ∧
  (r.stretchTimer = .running ↔ r.framing = .stretch) ∧
  (r.request.isSome = true → r.reply = .notReady)

/-- Both port records keep the law. -/
def State.PortsLawful (s : State) : Prop := s.portM.Lawful ∧ s.portL.Lawful

/-- The law of an event's end (R64, R162, R163, R191): no grant is left to make, the run state is RUN only with the warning released, and at
ports that do not acknowledge their addresses every open write frame has its error latch set. -/
def State.QuietLawful (s : State) : Prop :=
  s.grant = none ∧ (s.supply.run = .run → s.supply.warning = false) ∧
  ∀ p, s.acknowledges = false → (s.port p).framing = .write → (s.port p).latch = true

/-! ## The law of the key table (R12, R25, R36)

The law of the cells is `Slot.Lawful`. So that every step keeps it, `State.KeysLawful` says of each piece of work in flight what it will
bring to the table: the record of a write wait, the counter in comparison, the steps of the batch and the contents of the commit. -/

/-- The numbers of a cell under a stride: n ≤ C ≤ Lc ≤ LIMIT (R25), and P ≤ F ≤ min(P + S − 1, LIMIT) (R36). -/
def Counters.Lawful (stride : Nat) : Counters → Prop
  | .issue n ceiling limit => n ≤ ceiling ∧ ceiling ≤ limit ∧ limit ≤ LIMIT
  | .floor f persisted => persisted ≤ f ∧ f ≤ min (persisted + stride - 1) LIMIT

/-- The cells of a slot under its policy: a stride of at least 1 (R7), lawful numbers (R25, R36), PRIOR below CURRENT (R12). -/
def cellsLawful (policy : Option Policy) (current : Option Current) (prior : Option Prior) : Prop :=
  let stride := match policy with | some y => y.stride | none => 1
  1 ≤ stride ∧ (∀ k ∈ current, k.counters.Lawful stride) ∧ (∀ o ∈ prior, (Counters.floor o.f o.persisted).Lawful stride) ∧
  ∀ k ∈ current, ∀ o ∈ prior, o.generation < k.generation

/-- A generation above those of the slot's CURRENT and PRIOR (R12). -/
def Slot.Below (c : Slot) (generation : Nat) : Prop :=
  (∀ k ∈ c.current, k.generation < generation) ∧ ∀ o ∈ c.prior, o.generation < generation

/-- The law of a slot's cells (R12, R25, R36). -/
def Slot.Lawful (c : Slot) : Prop := cellsLawful c.policy c.current c.prior ∧ ∀ n ∈ c.next, c.Below n.generation

/-- The record of a write wait leaves its cell lawful when it completes (R27, R38). -/
def Slot.WaitLawful (c : Slot) : Prop :=
  match c.wait with
  | some ⟨.ceiling g v, _, _⟩ =>
    ∀ k ∈ c.current, k.generation = g → match k.counters with | .issue _ ceiling limit => ceiling ≤ v ∧ v ≤ limit | .floor .. => True
  | some ⟨.floor _ v _, _, _⟩ => v ≤ LIMIT
  | none => True

/-- A step of the batch fits the key table (R82): its generation is above those of its slot, its policy has a stride, and slot 0 is
neither defined nor cleared. -/
def State.fits (s : State) : AppliedPart → Prop
  | .install i g _ _ define given _ => (s.slot i).Below g ∧ (∀ y ∈ given, 1 ≤ y.stride) ∧ (i = 0 → define = none)
  | .policy _ given _ _ => 1 ≤ given.stride
  | .clear i => i ≠ 0
  | .endGrace _ => True
  | .lifecycle .. => True

/-- A step record of the buffer fits the key table. -/
def State.fitsRecord (s : State) (r : StepRecord) : Prop := s.fits (r.applied fun _ => 0).part

/-- The policies that a step record carries have a stride (R7). -/
def StepPart.Strided : StepPart → Prop
  | .install _ _ _ _ _ _ given => ∀ y ∈ given, 1 ≤ y.stride
  | .policy _ given _ _ => 1 ≤ given.stride
  | _ => True

/-- The port operations that occupy the engine, wait on a write, or wait as resumed (R47). -/
def State.holders (s : State) : List Port :=
  (match s.engine with | some (.issue p ..) => [p] | some (.compare p ..) => [p] | _ => []) ++
  ((List.finRange 24).flatMap fun i => match (s.slot i).wait with | some w => w.owner :: w.waiters | none => []) ++
  s.arbiter.resumed.map fun r => r.port

/-- The law of the engine's charge (R47, R54, R63): a port's operation stands in one place and is the port's request in flight; a request
that waits in the arbiter is one of the key engine; a frame that may still be taken finds no request in flight (R190, R193). -/
def State.ChargeLawful (s : State) : Prop :=
  s.holders.Nodup ∧ (∀ p ∈ s.holders, s.inCharge p = true) ∧
  ∀ p,
    (s.arbiter.waiting p = true → match (s.port p).request with | some (.cancel _) => False | some _ => True | none => False) ∧
    ((s.port p).framing = .write → (s.port p).latch = false → (s.port p).phase ≠ .address → (s.port p).request = none) ∧
    (match (s.port p).request with | some (.checkTag _ _ c _) => c ≤ LIMIT | _ => True)

/-- A counter in comparison leaves the matched cell lawful where it is accepted (R37, R53). -/
def State.CompareLawful (s : State) : Prop :=
  match s.engine with
  | some (.compare _ i g c _ position _ edge) =>
    c ≤ LIMIT ∧ i ≠ 0 ∧ (s.slot i).wait = none ∧
    (match position with
     | .current => ∀ k ∈ (s.slot i).current, k.generation = g →
        k.counters.floors.2 ≤ c ∧ edge ≤ k.counters.floors.2 + (s.slot i).stride
     | .prior => ∀ o ∈ (s.slot i).prior, o.generation = g → o.persisted ≤ c ∧ edge ≤ o.persisted + (s.slot i).stride)
  | _ => True

/-- The checking operations of the batch, presented to the arbiter or in the engine (R62). -/
def State.checkOps (s : State) : List CheckInput :=
  (match s.arbiter.checking with | some x => [x] | none => []) ++
  (match s.engine with | some (.check true x _) => [x] | _ => [])

/-- The requesters of the writes that have been handed over and not completed, in order. -/
def Journal.requesters (j : Journal) : List Requester := (j.queue ++ j.place).map fun e => e.requester

/-- The writes of the batch's checking that stand with the controller: FLOOR records of its authenticator stage, STEP and ARM records, and
DISARM records. -/
def Journal.floorsOf (j : Journal) : List Requester := j.requesters.filter fun r => decide (r = .checkFloor true)
def Journal.stepsOf (j : Journal) : List Requester :=
  j.requesters.filter fun r => decide (r = .checkStep true false) || decide (r = .checkStep true true)
def Journal.armsOf (j : Journal) : List Requester := j.requesters.filter fun r => decide (r = .checkArm)
def Journal.disarmsOf (j : Journal) : List Requester := j.requesters.filter fun r => decide (r = .disarm)

/-- The decided steps that are APPLIED fit the key table (R82, R84). -/
def State.decidedFit (s : State) : Prop :=
  ∀ x ∈ s.renewal.buffer.zip s.renewal.result.steps, x.2 = .applied → s.fitsRecord x.1

/-- The law of checking (R79): by its stage, the one checking operation or the records that stand for the batch, and how many steps have
been decided. -/
def State.StageLawful (s : State) : Prop :=
  let j := s.journal
  let r := s.renewal
  match r.checking with
  | none => r.state ≠ .checking ∧ s.checkOps = [] ∧ j.floorsOf = [] ∧ j.stepsOf = [] ∧ j.armsOf = []
  | some g => r.state = .checking ∧ s.supply.run ≠ .fault ∧
    match g with
    | .authenticator => j.floorsOf = [] ∧ j.stepsOf = [] ∧ j.armsOf = [] ∧ r.result.steps = [] ∧
        (match s.checkOps with | [.authenticator ..] => True | _ => False)
    | .floorWrite => s.checkOps = [] ∧ j.floorsOf.length = 1 ∧ j.stepsOf = [] ∧ j.armsOf = [] ∧ r.result.steps = []
    | .unwrap i => j.floorsOf = [] ∧ j.stepsOf = [] ∧ j.armsOf = [] ∧ r.result.steps.length = i ∧ s.decidedFit ∧
        (match r.buffer[i]?, s.checkOps with
         | some x, [.unwrap blob slot generation _] =>
           s.fitsRecord x ∧ (match x.part with
             | .install k g b .. => k = slot ∧ g = generation ∧ b = blob
             | _ => False)
         | _, _ => False)
    | .bankPlace i => s.checkOps = [] ∧ j.floorsOf = [] ∧ j.stepsOf = [] ∧ j.armsOf = [] ∧ r.result.steps.length = i + 1 ∧ s.decidedFit
    | .images => s.checkOps = [] ∧ j.floorsOf = [] ∧ j.stepsOf = [] ∧ j.armsOf = [] ∧ s.decidedFit
    | .records rest => s.checkOps = [] ∧ j.floorsOf = [] ∧ j.armsOf = [] ∧ Requester.checkStep true true ∉ j.stepsOf.dropLast ∧
        (rest ≠ [] → Requester.checkStep true true ∉ j.stepsOf)
    | .arm => s.checkOps = [] ∧ j.floorsOf = [] ∧ j.stepsOf = [] ∧ j.armsOf.length = 1

/-- The law of the batch and the commit (R67, R88, R96, R105, R110): a hold is requested only for an armed batch that is not being
disarmed and granted only to the commit, which finds the engine free with nothing in its charge; a DISARM record stands only for an armed
batch whose CANCEL is in flight at the batch port; sequences are at most LIMIT. -/
def State.BatchLawful (s : State) : Prop :=
  let r := s.renewal
  (s.arbiter.hold = .requested → r.state = .armed ∧ r.disarm = false) ∧
  (s.arbiter.hold = .granted ↔ s.commit.isSome = true) ∧
  (∀ c ∈ s.commit, r.state = .committing ∧ c.rolling = false ∧ s.engine = none ∧ s.holders = [] ∧
    ∀ x ∈ c.slots, cellsLawful x.policy x.current x.prior ∧ (x.slot = 0 → x.role = .renew)) ∧
  (r.disarm = true → r.state = .armed) ∧
  (r.disarm = true → s.supply.run ≠ .fault → s.canceller.isSome = true) ∧
  s.journal.disarmsOf.length ≤ 1 ∧ (s.journal.disarmsOf ≠ [] → r.disarm = true) ∧
  (∀ p, match (s.port p).request with
    | some (.cancel _) => s.supply.lifeCycle.batchPort = some p ∧ (r.checking = some .arm ∨ r.disarm = true)
    | _ => True) ∧
  (∀ h ∈ r.header, h.sequence ≤ LIMIT) ∧
  (∀ e ∈ s.journal.queue ++ s.journal.place, match e.write, e.requester with
    | .append (.floor _ _ v _), .checkFloor _ => v ≤ LIMIT
    | _, _ => True) ∧
  (∀ x ∈ r.buffer, x.part.Strided) ∧ (∀ a ∈ r.applied, s.fits a.part)

/-- The law of the key table and of the work in flight that will change it. In STARTING the table is being rebuilt and the law says
nothing. -/
def State.KeysLawful (s : State) : Prop :=
  s.supply.run ≠ .starting →
    s.supply.rstnLow = false ∧ s.supply.inRange = true ∧ (s.slot 0).role = .renew ∧
    (∀ i, (s.slot i).Lawful ∧ (s.slot i).WaitLawful) ∧
    s.ChargeLawful ∧ s.CompareLawful ∧ s.StageLawful ∧ s.BatchLawful

/-! ## Words that statements use -/

/-- Port `p` holds a complete command frame, not yet closed, with command byte `code` and no request in flight (R192). -/
def State.Holds (s : State) (p : Port) (code : Byte) : Prop :=
  (s.port p).frameComplete = true ∧ (s.port p).buffer.command = some code ∧ (s.port p).request = none

/-- The port record when its frame has been taken and completed at one event (R194, R195). -/
def PortRecord.answered (r : PortRecord) (st : Status) (payload : List Byte) : PortRecord :=
  { r with framing := .idle, busTimer := .stopped, request := none, reply := .reply st payload,
           lastRefusal := if st.isRefusal then st else r.lastRefusal }

/-- The state in which port `p` has been answered at the event at which its frame was taken, and nothing else has changed. -/
def State.answered (s : State) (p : Port) (st : Status) (payload : List Byte) : State :=
  s.setPort p ((s.port p).answered st payload)

/-- The port record when its frame has been taken and its request is in flight (R194). -/
def PortRecord.inFlight (r : PortRecord) (q : Request) : PortRecord :=
  { r with framing := .idle, busTimer := .stopped, request := some q, reply := .notReady }

/-- The turn record names a port (R65). -/
def State.turnTo (s : State) (p : Port) : State := { s with arbiter := { s.arbiter with turn := p } }

/-- The key engine is free and no requester waits for it (R63). -/
def State.EngineIdle (s : State) : Prop :=
  s.engine = none ∧ s.arbiter.resumed = [] ∧ s.arbiter.hold = .none ∧ s.arbiter.waitM = false ∧ s.arbiter.waitL = false ∧
  s.arbiter.checking = none

/-- A batch command at `p` passes the checks of R73: `p` is the batch port, so the life-cycle state is not RETIRED, and the run state is
RUN. -/
def State.BatchPort (s : State) (p : Port) : Prop := s.supply.lifeCycle.batchPort = some p ∧ s.supply.run = .run

/-- The staging window count at 0 where the renewal engine is STAGING (R73). -/
def State.windowReset (s : State) : State :=
  if s.renewal.state = .staging then { s with renewal := { s.renewal with windowCount := 0 } } else s

/-- A state that has handed a write to the controller and differs in nothing else: at the end of the queue, or of the place list where the
queue is full (R143). -/
def State.handed (s : State) (w : Write) (r : Requester) : State :=
  if s.journal.queue.length < 8 then { s with journal := { s.journal with queue := s.journal.queue ++ [⟨w, r⟩] } }
  else { s with journal := { s.journal with place := s.journal.place ++ [⟨w, r⟩] } }

/-- The entries of records handed over one after another (R143): the requester is told which of them is the last. -/
def entriesOf (requester : Bool → Requester) : List Body → List Entry
  | [] => []
  | b :: rest => ⟨.append b, requester rest.isEmpty⟩ :: entriesOf requester rest

/-- The items of the RETIRED erase in their order (R176): a slot's banks 0 to 2, then its SLOT record, then the next slot. -/
def itemNumber (i : Fin 24) (item : Fin 4) : Nat := 4 * i.val + item.val

/-- The erase has gone on from item `n` (R176): every item from `n` to the one in hand has nothing to write, and the one in hand has a
write; or every item from `n` has none and the erase is complete. -/
def State.EraseStandsFrom (t : State) (n : Nat) : Prop :=
  match t.supply.erase with
  | .none => False
  | .at i item => n ≤ itemNumber i item ∧ (t.eraseItem i item).isSome = true ∧
      ∀ k m, n ≤ itemNumber k m → itemNumber k m < itemNumber i item → t.eraseItem k m = none
  | .complete => ∀ k m, n ≤ itemNumber k m → t.eraseItem k m = none

/-- The write of the item that the erase has in hand, with its requester; none where it has none. -/
def State.eraseEntries (t : State) : List Entry :=
  match t.supply.erase with
  | .at i item => (match t.eraseItem i item with | some w => [⟨w, .erase⟩] | none => [])
  | _ => []

/-- The command row that takes a frame with command byte `b` at port `p` (chapter 11). -/
def CommandRow (p : Port) (b : Byte) (c : Instr) : Prop :=
  (b, c) ∈ ([(0x10, .makeTag p), (0x11, .checkTag p), (0x12, .pin p), (0x13, .unpin p), (0x20, .slotStatus p), (0x21, .partStatus p),
    (0x22, .readDemand p), (0x30, .batchOpen p), (0x31, .batchStep p), (0x32, .batchClose p), (0x33, .batchResult p),
    (0x34, .activate p), (0x35, .cancel p)] : List (Byte × Instr)) ∨
  (b ∉ ([0x10, 0x11, 0x12, 0x13, 0x20, 0x21, 0x22, 0x30, 0x31, 0x32, 0x33, 0x34, 0x35] : List Byte) ∧ c = .unknownCommand p)

/-- What a repeated START does to the transfer that is open at port `p` before its own address byte counts (R189, R192): the state in
which the port is in IDLE after the STOP that it stands for. -/
def State.ClosedBy (s : State) (p : Port) (u : State) : Prop :=
  let r := s.port p
  (u.port p).framing = .idle ∧
  (r.framing = .idle → u = s) ∧
  (r.framing = .read → u = s.setPort p { r with framing := .idle, busTimer := .stopped }) ∧
  (r.framing = .write → r.frameComplete = false → exec (.frameDiscard p) s = .next u) ∧
  (r.frameComplete = true → ∀ b c, r.buffer.command = some b → CommandRow p b c → exec c s = .next u)

/-- Slot `i` with other contents and a demand of the slot, routed by its notify map (R6, R179). -/
def State.slotDemand (s : State) (i : Fin 24) (c : Slot) (d : Demand) : State :=
  { s with
    slots := s.slots.set i.val c i.isLt
    queueM := if (s.slot i).notifyMap.m then arrive s.queueM d else s.queueM
    queueL := if (s.slot i).notifyMap.l then arrive s.queueL d else s.queueL }

/-- A demand to both queues (R179). -/
def State.bothDemand (s : State) (d : Demand) : State :=
  { s with queueM := arrive s.queueM d, queueL := arrive s.queueL d }

/-- The condition demands of a slot's CURRENT cell that are due, in their order (R116, R186): COUNTER_LOW, SPENT, LIFE_LOW, EXPIRED. -/
def conditionDemands (i : Fin 24) (generation t : Nat) (low spent life expired : Bool) : List Demand :=
  [(low, DemandKind.counterLow), (spent, .spent), (life, .lifeLow), (expired, .expired)].filterMap fun e =>
    if e.1 then some ⟨e.2, some i, some generation, none, t⟩ else none

/-- A CURRENT cell once its conditions have been evaluated at `t` (R31, R41, R132, R133): each mark is set where its demand is due, and a
LIVE cell past its lifetime is EXPIRED. -/
def Current.evaluated (k : Current) (policy : Option Policy) (t : Nat) : Current :=
  { k with
    warned := k.warned || counterLowDue policy k
    lifeWarned := k.lifeWarned || k.lifeWarningDue policy t
    state := if k.expiryDue t then .expired else k.state }

/-- The demands that this evaluation calls for; `spent` says whether SPENT is one of them. -/
def Current.demands (k : Current) (i : Fin 24) (policy : Option Policy) (t : Nat) (spent : Bool) : List Demand :=
  conditionDemands i k.generation t (counterLowDue policy k) spent (k.lifeWarningDue policy t) (k.expiryDue t)

/-- What the deadlines of a T that has become `t` leave of `s` (R131), in every run state but STARTING. Slot by slot in index order: the
life warning (R133), the expiry (R132), the grace end (R134), the pin lapse (R19), with their demands in that order, none of them in RETIRED
(R175). Then scheduled activation (R104). A pin lapse and a newly set flag make the commit start test of R105. -/
def State.DeadlinesMet (s : State) (t : Nat) (u : State) : Prop :=
  let warns (i : Fin 24) (k : Current) : Bool := !k.lifeWarned && decide (k.state ≠ .expired) &&
    decide (∃ l ∈ k.lifetime, ∃ y ∈ (s.slot i).policy, 0 < y.lifeWarn ∧ k.activation + l ≤ t + y.lifeWarn)
  let expires (k : Current) : Bool := decide (k.state = .live) && decide (∃ l ∈ k.lifetime, k.activation + l ≤ t)
  let lapsed (i : Fin 24) : Option Pin := (s.slot i).pin.filter fun k => decide (k.pinEnd ≤ t)
  let reached : Prop := s.renewal.state = .armed ∧ s.renewal.disarm = false ∧ s.renewal.activation = false ∧
    ∃ a ∈ s.renewal.activationTick, a ≤ t
  (s.supply.lifeCycle = .retired → u.slots = s.slots ∧ u.queueM = s.queueM ∧ u.queueL = s.queueL) ∧
  (s.supply.lifeCycle ≠ .retired →
    (∀ i, u.slot i = { s.slot i with
      current := (s.slot i).current.map fun k => { k with
        lifeWarned := k.lifeWarned || warns i k, state := if expires k then .expired else k.state }
      prior := (s.slot i).prior.filter fun k => decide (t < k.graceEnd)
      pin := (s.slot i).pin.filter fun k => decide (t < k.pinEnd) }) ∧
    ∀ p, u.queue p = List.foldl arrive (s.queue p) ((List.finRange 24).flatMap fun i =>
      (match (s.slot i).current with
       | some k => if (s.slot i).notifyMap.has p then conditionDemands i k.generation t false false (warns i k) (expires k) else []
       | none => []) ++
      (match lapsed i with
       | some k => if k.holder = p then [⟨.pinLapsed, some i, some k.generation, none, t⟩] else []
       | none => []))) ∧
  (reached → u.renewal = { s.renewal with activation := true }) ∧ (¬ reached → u.renewal = s.renewal) ∧
  (let starts : Prop := (reached ∨ s.supply.lifeCycle ≠ .retired ∧ ∃ i, (lapsed i).isSome = true) ∧ s.renewal.state = .armed ∧
     s.renewal.disarm = false ∧ u.renewal.activation = true ∧ u.namedPinned = false ∧ s.supply.run = .run ∧ s.arbiter.hold = .none
   (starts → u.arbiter = { s.arbiter with hold := .requested }) ∧ (¬ starts → u.arbiter = s.arbiter))

/-- Whether a SLOT record's contents no longer name the generation of a CEILING or FLOOR of its slot (R147). -/
def Body.Unnames (new old : Body) : Prop :=
  ∃ i o m g, new = .slot i o m ∧ ((∃ v c, old = .ceiling i g v c) ∨ ∃ v c, old = .floor i g v c) ∧ m.names g = false

/-- Whether the success of the record `new` makes the live record `old` stale (R147), row by row of its table; the keys are those of log
entry 43. -/
def Journal.Outdates (j : Journal) (new old : Body) : Prop :=
  match new with
  | .disarm q => (∃ n t o, old = .arm q n t o) ∨ ∃ a, old = .step q a
  | .commitEnd q => (∃ n t o, old = .arm q n t o) ∨ (∃ a, old = .step q a) ∨ (∃ tc, old = .commitBegin q tc) ∨
      (old.origin ≠ some q ∧ ∃ e ∈ j.liveBodies, e.2.origin = some q ∧ (e.2.key = old.key ∨ e.2.Unnames old))
  | .step .. => False
  | .arm .. => False
  | .commitBegin .. => False
  | b => old.ofCommit j.openCommit = b.ofCommit j.openCommit ∧
      (old.key = b.key ∨ (b.ofCommit j.openCommit = false ∧ b.Unnames old))

/-- Whether a record is live once it has succeeded (R141, R147). `keep` is false for a STEP whose batch has ended and for the FLOOR of a
PRIOR that is gone. -/
def Journal.Lives (j : Journal) (keep : Bool) (b : Body) : Prop :=
  match b with
  | .disarm _ => False
  | .commitEnd _ => False
  | .step .. => keep = true
  | .arm .. => True
  | .commitBegin .. => True
  | b => b.ofCommit j.openCommit = true ∨ (keep = true ∧ j.namedByBase b = true)

/-- What a record that succeeds leaves (R137, R146, R147): it stands at the write position with the present lap count, the write position
moves on and from 511 to 0 with the next lap count, the record is live where the table says so, and each other position stays live unless
the record makes what it holds stale. -/
def Journal.AppendStands (j : Journal) (keep : Bool) (b : Body) (t : Journal) : Prop :=
  let p := j.writePosition
  cellGet p t.ring = some (.record (.made j.lap b)) ∧ (∀ n, n ≠ p → cellGet n t.ring = cellGet n j.ring) ∧
  t.writePosition = (if p = 511 then 0 else p + 1) ∧ t.lap = (if p = 511 then j.lap + 1 else j.lap) ∧
  (j.Lives keep b → t.isLive p = true) ∧ (¬ j.Lives keep b → j.isLive p = false → t.isLive p = false) ∧
  ∀ n, n ≠ p → (t.isLive n = true ↔ j.isLive n = true ∧ ∀ r, j.recordAt n = some r → ¬ j.Outdates b r.body)

/-- What an abort leaves (R168): every volatile part cleared, the run state STARTING, the command queue kept. -/
def State.Cleared (t s : State) : Prop :=
  t.pending = s.pending ∧ (∀ i, t.slot i = Slot.blank) ∧ t.engine = none ∧ t.arbiter = ⟨[], .none, false, false, none, .L, 0⟩ ∧
  t.renewal = .idle ∧ t.commit = none ∧ t.time = ⟨0, 0, 0, none, false, .stopped, .stopped⟩ ∧
  t.journal.queue = [] ∧ t.journal.place = [] ∧ t.journal.live = [] ∧ t.journal.failures = 0 ∧
  t.journal.writePosition = 0 ∧ t.journal.lap = 0 ∧
  t.supply.run = .starting ∧ t.supply.faultMark = false ∧ t.supply.lifeCycle = .factory ∧ t.supply.erase = .none ∧
  t.queueM = [] ∧ t.queueL = [] ∧
  t.portM = .cleared ∧ t.portL = .cleared

/-- The life-cycle state that a scan finds; FACTORY where it finds no LIFECYCLE record (R153). -/
def Scan.lifeCycle (c : Scan) : LifeCycle := match c.base .lifecycle with | some (.lifecycle l _ _) => l | _ => .factory

/-- Whether a record of the ring is live at the scan (R141, R152): it is the newest of its key among the records that are, like it, of the
open commit or base records, and its row of the table of R141 holds. -/
def Scan.Live (c : Scan) (e : Placed) : Prop :=
  let newer (x y : Placed) : Prop := rank c.newest y < rank c.newest x
  let named (i : Fin 24) (g : Nat) : Prop := ∃ k o m, c.base (.slot i) = some (.slot k o m) ∧ m.names g = true
  let stands (x : Placed) (q : Nat) : Prop :=
    ¬ ∃ y ∈ c.records, newer y x ∧ (y.2.body = .disarm q ∨ y.2.body = .commitEnd q)
  e ∈ c.records ∧
  (¬ ∃ x ∈ c.records, newer x e ∧ x.2.body.key = e.2.body.key ∧ x.2.body.ofCommit c.sequence = e.2.body.ofCommit c.sequence) ∧
  match e.2.body with
  | .slot .. => True
  | .time _ => True
  | .lifecycle .. => True
  | .ceiling i g _ _ => e.2.body.ofCommit c.sequence = true ∨ named i g
  | .floor i g _ _ => e.2.body.ofCommit c.sequence = true ∨ named i g
  | .arm q .. => stands e q
  | .step q _ => ∃ x ∈ c.records, (∃ n t o, x.2.body = .arm q n t o) ∧ stands x q
  | .commitBegin q _ => c.sequence = some q
  | .disarm _ => False
  | .commitEnd _ => False

/-- A tick value that start-up applies (R129): an activation tick or grace end of a restored cell, or the activation tick of a restored
armed batch; values above LIMIT are not counted. -/
def Scan.Carries (c : Scan) (v : Nat) : Prop :=
  v ≤ LIMIT ∧ ((∃ i, ∃ k ∈ (c.slot i).current, v = k.activation) ∨
    (∃ i, ∃ k ∈ (c.slot i).prior, v = k.activation ∨ v = k.graceEnd) ∨ ∃ q o, c.arm = some (q, some v, o))

/-- An INSTALL among the steps of a sequence names a NEXT image that is not valid (R155, R157). -/
def State.NextInvalid (s : State) (c : Scan) (sequence : Nat) : Prop :=
  ∃ a ∈ c.steps sequence, ∃ i g life budget define given b,
    a.part = .install i g life budget define given b ∧ s.journal.validImage i b g = false

/-- The scan of a store that sets the start-up fault mark (R153 to R155, R157, R170): no LIFECYCLE or no TIME record, outside RETIRED a
cell without a valid image, or a NEXT image that is not valid in the open commit or the armed batch. -/
def State.Marked (s : State) (c : Scan) : Prop :=
  c.base .lifecycle = none ∨ c.base .time = none ∨
  (c.lifeCycle ≠ .retired ∧ ∃ i, (∃ k ∈ (c.slot i).current, s.journal.validImage i k.bank k.generation = false) ∨
    ∃ k ∈ (c.slot i).prior, s.journal.validImage i k.bank k.generation = false) ∨
  (∃ sequence tc, c.opened = some (sequence, tc) ∧ s.NextInvalid c sequence) ∨
  ∃ sequence tick outcomes, c.arm = some (sequence, tick, outcomes) ∧ s.NextInvalid c sequence

/-- The store after an abort, by what was being made and how it was left (R151). -/
def StoreCut (s t : State) (cut : Cut) : Prop :=
  match s.journal.queue, cut with
  | [], _ => t.journal.ring = s.journal.ring ∧ t.journal.banks = s.journal.banks
  | _, .notBegun => t.journal.ring = s.journal.ring ∧ t.journal.banks = s.journal.banks
  | ⟨.append b, _⟩ :: _, .whole =>
    t.journal.banks = s.journal.banks ∧
    cellGet s.journal.writePosition t.journal.ring =
      some (.record (.made s.journal.lap (match s.journal.toCopy with | some r => r.body | none => b))) ∧
    ∀ k, k ≠ s.journal.writePosition → cellGet k t.journal.ring = cellGet k s.journal.ring
  | ⟨.append _, _⟩ :: _, .torn =>
    t.journal.banks = s.journal.banks ∧ cellGet s.journal.writePosition t.journal.ring = some .spoiled ∧
    ∀ k, k ≠ s.journal.writePosition → cellGet k t.journal.ring = cellGet k s.journal.ring
  | ⟨.bankWrite i b g key, _⟩ :: _, .whole =>
    t.journal.ring = s.journal.ring ∧ t.journal.banks = cellSet (bankNumber i b) (.made i g key) s.journal.banks
  | ⟨.bankErase i b, _⟩ :: _, .whole =>
    t.journal.ring = s.journal.ring ∧ t.journal.banks = cellErase (bankNumber i b) s.journal.banks
  | ⟨.bankWrite i b _ _, _⟩ :: _, .torn =>
    t.journal.ring = s.journal.ring ∧ t.journal.banks = cellSet (bankNumber i b) .spoiled s.journal.banks
  | ⟨.bankErase i b, _⟩ :: _, .torn =>
    t.journal.ring = s.journal.ring ∧ t.journal.banks = cellSet (bankNumber i b) .spoiled s.journal.banks

/-- The arbiter has no grant to make (R64), and the run state is not FLUSH, so that no drain is pending (R164). -/
def State.AtRest (s : State) : Prop := s.grant = none ∧ s.supply.run ≠ .flush

end Sys2Proof.Machine
end

