-- ==== Sys2Proof/Certificates/Slice0/Obligations.lean ====
section
/-! DEFINITION. The statements for the provers. Each names the rules of spec/ it comes from; where a clause rests on a choice of the
model, the docstring names the log entry. `State.settle` is the end of an event: the arbiter's grants (R64, stated by
`ArbiterGrants`), then the drain condition (R164). -/

open Sys2Proof Sys2Proof.Machine

/-! ## The block as a whole -/

/-- A step runs the command at the front of the queue on the state with the queue's rest; on an empty queue the block idles (model's
choice, log entry 16). Every command answers a next state, and none adds to or takes from the queue of waiting commands. -/
def Obligations.StepRunsTheFrontCommand : Prop :=
  ∀ (c : Instr) (rest : List Instr) (s : State),
    (s.pending = c :: rest → step s = exec c (s.withPending rest)) ∧ (s.pending = [] → step s = .next s) ∧
    ∃ t : State, exec c s = .next t ∧ t.pending = s.pending


/-- Reset is the delivered part (R23, R137) with RSTN low: run state STARTING and every volatile part cleared (R168). The levels of the
pins are the model's choice (log entry 1). -/
def Obligations.ResetIsTheDeliveredPart : Prop :=
  State.reset.Cleared State.reset ∧ State.reset.pending = [] ∧
  State.reset.journal.ring =
    [(0, .record (.made 0 (.lifecycle .factory 0 none))),
     (1, .record (.made 0 (.slot 0 none
        { role := .renew, userMap := ⟨false, false⟩, notifyMap := ⟨true, true⟩,
          policy := some ⟨1, 0, 0, 0, 0, .carryOn⟩, current := some ⟨1, 0, none, none, 0⟩, prior := none }))),
     (2, .record (.made 0 (.floor 0 1 0 none))),
     (3, .record (.made 0 (.time 0)))] ∧
  State.reset.journal.banks = [(0, .made 0 1 Config.factoryKey)] ∧
  State.reset.supply.rstnLow = true ∧ State.reset.supply.inRange = true ∧ State.reset.supply.warning = false

/-- The first start-up of a delivered part (R23, R130, R137, R171, R186, R189), by either cause (R168): it ends in RUN at T = 0 with a
checkpoint of 64 handed over, slot 0 LIVE under generation 1, every other slot EMPTY, RESTARTED in both queues, each port at its sampled
address, and the store as delivered. It speaks of the one state of reset, in which PFWN is released (model's choice, log entry 1), and the
levels of ADRx are operands of the row (model's choice, log entry 29); `StartUpRebuildsFromTheRing` is the general form. -/
def Obligations.FirstStartUpEndsInRun : Prop :=
  ∀ adrM adrL : Bool, ∃ t : State, exec (.rstnRelease adrM adrL) State.reset = .next t ∧
    exec (.supplyReturn adrM adrL)
      { State.reset with supply := { State.reset.supply with inRange := false, rstnLow := false } } = .next t ∧
    t.supply.run = .run ∧ t.supply.lifeCycle = .factory ∧ t.time.code = 0 ∧ t.time.t = 0 ∧ t.time.tb = 0 ∧
    t.time.checkpoint = some 64 ∧ t.journal.queue = [⟨.append (.time 64), .time⟩] ∧
    t.journal.writePosition = 4 ∧ t.journal.lap = 0 ∧ t.journal.live = [0, 1, 2, 3] ∧
    t.journal.ring = State.reset.journal.ring ∧ t.journal.banks = State.reset.journal.banks ∧
    t.slot 0 = { role := .renew, userMap := .none, notifyMap := .both, policy := some ⟨1, 0, 0, 0, 0, .carryOn⟩, pin := none,
                 current := some ⟨1, .live, 0, none, .floor 0 0, 0, false, false⟩, next := none, prior := none, wait := none } ∧
    (∀ i, i ≠ 0 → t.slot i = Slot.blank) ∧
    t.queueM = [⟨.restarted, none, none, none, 0⟩] ∧ t.queueL = [⟨.restarted, none, none, none, 0⟩] ∧
    t.portM = { PortRecord.cleared with address := if adrM then 0x4B else 0x4A } ∧
    t.portL = { PortRecord.cleared with address := if adrL then 0x4B else 0x4A }

/-- Start-up by RSTN_RELEASE or SUPPLY_RETURN, from any ring and banks that an abort has left (R24, R32, R42, R99, R129, R152 to R157, R168 to
R171, R176, R177, R186, R189). The write position and the lap count follow the newest valid record, and the live map holds what R141 makes
live of the valid records. A cause that finds its pin already so, or the other pin not, moves pins alone.
`quiet`: outside RETIRED with no open commit and every image valid, start-up ends in RUN, or QUIESCENT with PFWN low: T and Tb from the
newest TIME record with the checkpoint handed over in RUN; each slot from its newest base SLOT record: an ISSUE cell n = C (C = Lc without
a CEILING record), any other cell, PRIOR too, F = min(P + S − 1, LIMIT) (P = LIMIT without a FLOOR record); CURRENT SPENT at its limit,
else EXPIRED where A + L ≤ T, else LIVE; PRIOR gone where Ge ≤ T; the standing ARM record's batch ARMED, its NEXT cells READY, its flag
set where its tick is reached and then in RUN committing at once. Wherever start-up ends outside RETIRED, in FAULT too, each queue holds
RESTARTED, then per slot what its CURRENT raises of COUNTER_LOW, SPENT, LIFE_LOW and EXPIRED, by the notify map, then the BATCH_ARMED of a
batch so armed; a cell is marked for its COUNTER_LOW and LIFE_LOW.
`marked`: with no LIFECYCLE or TIME record or an invalid image, start-up ends in FAULT, writes nothing, and leaves an open commit open.
Without a TIME record T and Tb take the largest tick value that the restored cells and batch carry, or 0.
`rolled`: an open commit is computed again from the restored key table and its records handed over, in STARTING.
`retired`: in RETIRED no bank is checked and RESTARTED is the one demand; the erase goes on from its first item, waiting on its write with
PFWN released; otherwise start-up ends. ADRx levels as operands, an event that is not due, the restored header of a sequence alone and the
items that the erase passes over with the warning held are the model's (log entries 29, 15, 26, 21), and so is the one key of a CEILING
and a FLOOR (log entry 43). -/
def Obligations.StartUpRebuildsFromTheRing : Prop :=
  (∀ (adrM adrL : Bool) (s : State),
    (s.supply.rstnLow = false → exec (.rstnRelease adrM adrL) s = .next s) ∧
    (s.supply.inRange = true → exec (.supplyReturn adrM adrL) s = .next s) ∧
    (s.supply.rstnLow = true → s.supply.inRange = false → exec (.rstnRelease adrM adrL) s =
      .next { s with supply := { s.supply with rstnLow := false, adrM := adrM, adrL := adrL } }) ∧
    (s.supply.inRange = false → s.supply.rstnLow = true → exec (.supplyReturn adrM adrL) s =
      .next { s with supply := { s.supply with inRange := true, adrM := adrM, adrL := adrL } })) ∧
  ∀ (cause : Instr) (adrM adrL : Bool) (q : List Instr) (ring : List (Nat × RingCell)) (banks : List (Nat × BankCell))
    (pins : Supply),
    let s := State.aborted q ring banks pins
    let c := scanRing ring
    (cause = .rstnRelease adrM adrL ∧ pins.rstnLow = true ∧ pins.inRange = true) ∨
      (cause = .supplyReturn adrM adrL ∧ pins.rstnLow = false ∧ pins.inRange = false) →
    let lifeCycle := c.lifeCycle
    let marked := s.Marked c
    ∃ t : State, exec cause s = .next t ∧ t.pending = q ∧ t.journal.ring = ring ∧ t.journal.banks = banks ∧
      t.supply.inRange = true ∧ t.supply.rstnLow = false ∧ t.supply.lifeCycle = lifeCycle ∧ t.engine = none ∧
      (∀ tb, c.base .time = some (.time tb) → t.time.t = tb ∧ t.time.tb = tb) ∧
      (c.base .time = none → t.time.tb = t.time.t ∧ (t.time.t = 0 ∨ c.Carries t.time.t) ∧ ∀ v, c.Carries v → v ≤ t.time.t) ∧
      (match latest c.newest (fun _ => true) c.records with
       | some (n, r) => t.journal.writePosition = (if n = 511 then 0 else n + 1) ∧ t.journal.lap = if n = 511 then r.lap + 1 else r.lap
       | none => t.journal.writePosition = 0 ∧ t.journal.lap = 0) ∧
      (∀ n, t.journal.isLive n = true ↔ ∃ r, c.Live (n, r)) ∧
      (∀ l code o, c.base .lifecycle = some (.lifecycle l code o) → t.time.code = code) ∧
      (t.supply.run ≠ .starting →
        t.portM = { PortRecord.cleared with address := if adrM then 0x4B else 0x4A } ∧
        t.portL = { PortRecord.cleared with address := if adrL then 0x4B else 0x4A } ∧
        t.queueM.head? = some ⟨.restarted, none, none, none, t.time.t⟩ ∧
        t.queueL.head? = some ⟨.restarted, none, none, none, t.time.t⟩ ∧
        (lifeCycle ≠ .retired → ∀ p, t.queue p = List.foldl arrive [] ([⟨.restarted, none, none, none, t.time.t⟩] ++
          ((List.finRange 24).flatMap fun i => match (t.slot i).current with
            | some k => if (t.slot i).notifyMap.has p then conditionDemands i k.generation t.time.t k.warned
                (decide (k.state = .spent)) k.lifeWarned (decide (k.state = .expired)) else []
            | none => []) ++
          match c.arm with | some (sequence, _, _) => [⟨.batchArmed, none, none, some sequence, t.time.t⟩] | none => []))) ∧
      -- quiet
      (∀ tb, ¬ marked → c.opened = none → lifeCycle ≠ .retired → c.base .time = some (.time tb) →
        let handed : List Entry := if pins.warning = false ∧ tb < LIMIT then [⟨.append (.time (min (tb + 64) LIMIT)), .time⟩] else []
        t.supply.run = (if pins.warning then .quiescent else .run) ∧
        t.time.checkpoint = (if pins.warning = false ∧ tb < LIMIT then some (min (tb + 64) LIMIT) else none) ∧
        (c.arm = none → t.renewal = Renewal.idle ∧ t.commit = none ∧ t.journal.queue = handed ∧ ∀ i, (t.slot i).next = none) ∧
        (∀ sequence tick outcomes, c.arm = some (sequence, tick, outcomes) →
          let reached := ∃ a ∈ tick, a ≤ tb
          let armed : Renewal := { Renewal.idle with
            state := .armed, header := some ⟨sequence, none, none, []⟩, applied := c.steps sequence, activationTick := tick,
            result := ⟨sequence, .armed, outcomes⟩ }
          (¬ reached → t.renewal = armed) ∧
          (reached → pins.warning = true → t.renewal = { armed with activation := true }) ∧
          (reached → pins.warning = false → t.renewal = { armed with activation := true, state := .committing } ∧
            t.arbiter.hold = .granted ∧ t.commit = some ⟨tb, false, .begin, [], none, []⟩ ∧
            t.journal.queue = handed ++ [⟨.append (.commitBegin sequence tb), .commitBegin⟩]) ∧
          (¬ reached ∨ pins.warning = true → t.commit = none ∧ t.journal.queue = handed) ∧
          (∀ w ∈ [t.queueM, t.queueL], ⟨.batchArmed, none, none, some sequence, tb⟩ ∈ w ∨ ∃ d ∈ w, d.kind = .queueFull) ∧
          ∀ i, (t.slot i).next = (c.steps sequence).reverse.findSome? fun a => match a.part with
            | .install j g life budget _ _ b => if j = i then some ⟨g, true, life, budget, b⟩ else none
            | _ => none) ∧
        ∀ i, (t.slot i).pin = none ∧ (t.slot i).wait = none ∧
          (∀ j oj m, c.base (.slot i) = some (.slot j oj m) →
            (t.slot i).role = m.role ∧ (t.slot i).userMap = m.userMap ∧ (t.slot i).notifyMap = m.notifyMap ∧
            (t.slot i).policy = m.policy ∧ ((t.slot i).current.isSome = m.current.isSome) ∧
            (∀ k ∈ m.current, ∀ k' ∈ (t.slot i).current,
              k'.generation = k.generation ∧ k'.activation = k.activation ∧ k'.lifetime = k.lifetime ∧ k'.bank = k.bank ∧
              (let limit := k.limit.getD LIMIT
               let ceiling := (c.ceiling i k.generation).getD limit
               m.role = .issue → k'.counters = .issue ceiling ceiling limit) ∧
              (let p := (c.floor i k.generation).getD LIMIT
               m.role ≠ .issue → ∀ y ∈ m.policy, k'.counters = .floor (min (p + y.stride - 1) LIMIT) p) ∧
              k'.state = (match k'.counters with
                | .issue n _ limit => if n = limit then .spent else if ∃ l ∈ k.lifetime, k.activation + l ≤ tb then .expired else .live
                | .floor f _ => if f = LIMIT then .spent else if ∃ l ∈ k.lifetime, k.activation + l ≤ tb then .expired else .live) ∧
              ∀ y ∈ m.policy,
                let left := match k'.counters with | .issue n _ limit => limit - n | .floor f _ => LIMIT - f
                k'.warned = (decide (0 < y.warnStrides) && decide (left ≤ y.warnStrides * y.stride)) ∧
                k'.lifeWarned = (decide (0 < y.lifeWarn) && decide (∃ l ∈ k.lifetime, k.activation + l ≤ tb + y.lifeWarn))) ∧
            ∀ y ∈ m.policy, (t.slot i).prior = (m.prior.map fun k =>
              let p := (c.floor i k.generation).getD LIMIT
              (⟨k.generation, k.activation, min (p + y.stride - 1) LIMIT, p, k.graceEnd, k.bank⟩ : Prior)).filter
                fun k => decide (tb < k.graceEnd)) ∧
          (c.base (.slot i) = none → (t.slot i).role = .empty ∧ (t.slot i).current = none ∧ (t.slot i).prior = none)) ∧
      -- marked
      (marked → t.supply.run = .fault ∧ t.journal.queue = [] ∧ t.journal.place = [] ∧ t.commit = none ∧
        ∀ sequence tc, c.opened = some (sequence, tc) → t.renewal = { Renewal.idle with
          state := .committing, header := some ⟨sequence, none, none, []⟩, applied := c.steps sequence, activation := true }) ∧
      -- rolled
      (∀ sequence tc, ¬ marked → c.opened = some (sequence, tc) →
        let x := t.compute tc sequence (c.steps sequence)
        let entries := entriesOf .commitRecord x.2.2
        t.supply.run = .starting ∧ t.renewal = { Renewal.idle with
          state := .committing, header := some ⟨sequence, none, none, []⟩, applied := c.steps sequence, activation := true } ∧
        (∀ i, t.slot i = c.slot i) ∧
        (x.2.2 ≠ [] → t.commit = some ⟨tc, true, .records, x.1, x.2.1, x.2.2.drop 9⟩ ∧ t.journal.queue = entries.take 8 ∧
          t.journal.place = (entries.drop 8).take 1) ∧
        (x.2.2 = [] → t.commit = some ⟨tc, true, .ending, x.1, x.2.1, []⟩ ∧
          t.journal.queue = [⟨.append (.commitEnd sequence), .commitEnd⟩])) ∧
      -- retired
      (¬ marked → c.opened = none → lifeCycle = .retired → t.EraseStandsFrom 0 ∧
        (pins.warning = false → t.supply.erase ≠ .complete → t.supply.run = .starting ∧ t.journal.queue = t.eraseEntries) ∧
        (pins.warning = true → t.supply.run = .quiescent ∧ t.journal.queue = []) ∧
        (pins.warning = false → t.supply.erase = .complete → t.supply.run = .run) ∧
        (t.supply.run ≠ .starting → t.queueM = [⟨.restarted, none, none, none, t.time.t⟩] ∧ t.queueL = t.queueM))

/-- RSTN low and the loss of the supply abort every block (R151, R168): every volatile part is cleared, the write position, the lap count,
the life-cycle state and the erase progress with them, the run state is STARTING, and the write being made is left whole, torn or not
begun, where a write not begun leaves its position or bank as it stood (model's reading, log entry 39). That the values of a cleared part
while STARTING are 0, empty, the address 4Ah and blank slots is the model's choice (log entry 1), and so is that an event that finds its
pin already so changes nothing (log entry 15). -/
def Obligations.AbortClearsThePart : Prop :=
  ∀ (cut : Cut) (s : State),
    (s.supply.rstnLow = false → ∃ t : State, exec (.rstnLow cut) s = .next t ∧ t.Cleared s ∧ StoreCut s t cut ∧
      t.supply.rstnLow = true ∧ t.supply.inRange = s.supply.inRange ∧ t.supply.warning = s.supply.warning) ∧
    (s.supply.rstnLow = true → exec (.rstnLow cut) s = .next s) ∧
    (s.supply.inRange = true → ∃ t : State, exec (.supplyLoss cut) s = .next t ∧ t.Cleared s ∧ StoreCut s t cut ∧
      t.supply.inRange = false ∧ t.supply.rstnLow = s.supply.rstnLow ∧ t.supply.warning = s.supply.warning) ∧
    (s.supply.inRange = false → exec (.supplyLoss cut) s = .next s)


/-! ## The power-fail warning -/

/-- The assertion of PFWN (R97, R162, R163, R166). In RUN the run state becomes FLUSH, the ports stop acknowledging, an open write frame has
its latch set, a requested hold is withdrawn; a batch before its ARM record is abandoned with POWER_WARNING, and an armed one keeps its
flag; then the event settles. At the end of every event in FLUSH the run state is QUIESCENT where the drain condition holds and FLUSH
where it does not (R164): no port request waits or is in the engine's charge, the engine is free, the renewal engine neither CHECKING nor
COMMITTING nor disarming, no write in the queue or the place list, those of the erase among them, and no checkpoint in flight. In FAULT
the ports stop acknowledging, with the latch of an open write frame set, and nothing else changes; in STARTING the warning is held for the
end of start-up and nothing else changes. An assertion that finds the warning held changes nothing (model's choice, log entry 15). -/
def Obligations.PfwnAssertEntersFlush : Prop :=
  (∀ s : State,
    let latched (r : PortRecord) : PortRecord := if r.framing = .write then { r with latch := true } else r
    let withdrawn : Arbiter := { s.arbiter with hold := if s.arbiter.hold = .requested then .none else s.arbiter.hold }
    (s.supply.warning = true → exec .pfwnAssert s = .next s) ∧
    (s.supply.run = .fault → s.supply.warning = false → ∃ t : State, exec .pfwnAssert s = .next t ∧ t.acknowledges = false ∧
      t = { s with supply := { s.supply with warning := true }, portM := latched s.portM, portL := latched s.portL }) ∧
    (s.supply.run = .starting → s.supply.warning = false →
      exec .pfwnAssert s = .next { s with supply := { s.supply with warning := true } }) ∧
    (s.supply.run = .run → s.supply.warning = false → ∃ u : State, exec .pfwnAssert s = .next u.settle ∧
      (u.settle.supply.run = .flush ∨ u.settle.supply.run = .quiescent) ∧ u.settle.acknowledges = false ∧
      u.supply = { s.supply with run := .flush, warning := true } ∧ u.portM = latched s.portM ∧ u.portL = latched s.portL ∧
      u.time = s.time ∧ u.commit = s.commit ∧ u.journal.ring = s.journal.ring ∧ u.journal.banks = s.journal.banks ∧
      (s.renewal.beforeArm = false → u.renewal = s.renewal ∧ u.arbiter = withdrawn ∧ u.engine = s.engine ∧
        u.slots = s.slots ∧ u.journal = s.journal ∧ u.queueM = s.queueM ∧ u.queueL = s.queueL) ∧
      (s.renewal.beforeArm = true → u.renewal.state = .idle ∧ u.renewal.lastCommitted = s.renewal.lastCommitted ∧
        u.renewal.result = ⟨s.renewal.sequence, .refused .powerWarning, s.renewal.outcomes⟩ ∧
        u.arbiter = { withdrawn with checking := none, passed := 0 } ∧ u.engine = s.engine.map EngineOp.detached ∧
        (∀ i, u.slot i = { s.slot i with next := none }) ∧
        u.queueM = arrive s.queueM ⟨.batchRefused, none, none, some s.renewal.sequence, s.time.t⟩ ∧
        u.queueL = arrive s.queueL ⟨.batchRefused, none, none, some s.renewal.sequence, s.time.t⟩))) ∧
  ∀ s : State, s.supply.run = .flush →
    let t := s.settle
    let drained := t.arbiter.waitM = false ∧ t.arbiter.waitL = false ∧ t.inCharge .M = false ∧ t.inCharge .L = false ∧
      t.engine = none ∧ t.renewal.state ≠ .checking ∧ t.renewal.state ≠ .committing ∧ t.renewal.disarm = false ∧
      t.journal.queue = [] ∧ t.journal.place = [] ∧ t.time.checkpoint = none
    (drained → t.supply.run = .quiescent) ∧ (¬ drained → t.supply.run = .flush)

/-- The release of PFWN (R165, R166, R177). In FLUSH or QUIESCENT the run state becomes RUN, the ports acknowledge again, the checkpoint test
is made and its TIME record handed over, an armed batch whose flag is set and whose named slots hold no pin has the table hold requested or
granted, and the RETIRED erase hands its next item over unless one is with the controller; the slots, the engine, the renewal engine, the
commit, the ports, the demand queues and the store stay until the event settles. In FAULT and STARTING the warning alone changes. A release
that finds no warning changes nothing (model's choice, log entry 15). -/
def Obligations.PfwnReleaseReturnsToRun : Prop :=
  ∀ s : State,
    (s.supply.warning = false → exec .pfwnRelease s = .next s) ∧
    (s.supply.run = .fault ∨ s.supply.run = .starting → s.supply.warning = true →
      exec .pfwnRelease s = .next { s with supply := { s.supply with warning := false } }) ∧
    (s.supply.run = .flush ∨ s.supply.run = .quiescent → s.supply.warning = true →
      let due := s.time.checkpoint = none ∧ s.time.tb < LIMIT ∧ s.time.tb ≤ s.time.t + 32
      let timed : State := if due then s.handed (.append (.time (min (s.time.t + 64) LIMIT))) .time else s
      ∃ u : State, exec .pfwnRelease s = .next u.settle ∧ u.supply.run = .run ∧ u.supply.warning = false ∧
        u.settle.acknowledges = true ∧ u.supply.lifeCycle = s.supply.lifeCycle ∧ u.time.t = s.time.t ∧ u.time.tb = s.time.tb ∧
        u.time.deferred = s.time.deferred ∧
        u.time.checkpoint = (if due then some (min (s.time.t + 64) LIMIT) else s.time.checkpoint) ∧
        (s.supply.erase = .none ∨ s.supply.erase = .complete ∨ s.eraseBusy = true → u.journal = timed.journal) ∧
        (∀ i item w, s.supply.erase = .at i item → s.eraseBusy = false → s.eraseItem i item = some w →
          u.journal = (timed.handed w .erase).journal) ∧
        (s.renewal.state = .armed → s.renewal.disarm = false → s.renewal.activation = true → s.namedPinned = false →
          u.arbiter.hold ≠ .none) ∧
        (s.renewal.state ≠ .armed → u.arbiter = s.arbiter) ∧
        u.slots = s.slots ∧ u.engine = s.engine ∧ u.renewal = s.renewal ∧ u.commit = s.commit ∧ u.portM = s.portM ∧
        u.portL = s.portL ∧ u.queueM = s.queueM ∧ u.queueL = s.queueL ∧ u.journal.ring = s.journal.ring ∧
        u.journal.banks = s.journal.banks)

/-! ## Part time -/

/-- The table of ticks (R124), case by case: a tick is discarded, deferred, or advances T by 1 and makes the checkpoint test (R126), whose
TIME record is handed over at that event. Before the event settles, a tick that advances T changes no counter, floor, maps or policy of a
slot, no port, no operation in the engine and nothing else of the journal: the floors of a PRIOR that stays are as they were, and in RETIRED
every slot is. -/
def Obligations.TickTable : Prop :=
  ∀ s : State,
    (s.supply.run = .starting ∨ s.time.deferred = true ∨ s.time.t = LIMIT → exec .tick s = .next s) ∧
    (s.supply.run ≠ .starting → s.time.deferred = false → s.time.t ≠ LIMIT → s.time.t = s.time.tb →
      exec .tick s = .next (if s.time.checkpoint.isSome then { s with time := { s.time with deferred := true } } else s)) ∧
    (s.supply.run ≠ .starting → s.time.deferred = false → s.time.t ≠ LIMIT → s.time.t < s.time.tb →
      let due := (s.supply.run = .run ∨ s.supply.run = .flush) ∧ s.time.checkpoint = none ∧ s.time.tb < LIMIT ∧
        s.time.tb ≤ s.time.t + 1 + 32
      ∃ u : State, exec .tick s = .next u.settle ∧ u.settle.time = u.time ∧
        u.time = { s.time with
          t := s.time.t + 1
          checkpoint := if due then some (min (s.time.t + 1 + 64) LIMIT) else s.time.checkpoint } ∧
        u.journal = (if due then s.handed (.append (.time (min (s.time.t + 1 + 64) LIMIT))) .time else s).journal ∧
        u.supply = s.supply ∧ u.engine = s.engine ∧ u.commit = s.commit ∧ u.portM = s.portM ∧ u.portL = s.portL ∧
        u.journal.ring = s.journal.ring ∧ u.journal.banks = s.journal.banks ∧
        ∀ i, (u.slot i).role = (s.slot i).role ∧ (u.slot i).userMap = (s.slot i).userMap ∧
          (u.slot i).notifyMap = (s.slot i).notifyMap ∧ (u.slot i).policy = (s.slot i).policy ∧
          (u.slot i).next = (s.slot i).next ∧ (u.slot i).wait = (s.slot i).wait ∧
          (u.slot i).current.map (fun k => (k.generation, k.activation, k.lifetime, k.counters, k.bank, k.warned)) =
            (s.slot i).current.map (fun k => (k.generation, k.activation, k.lifetime, k.counters, k.bank, k.warned)) ∧
          (∀ k ∈ (u.slot i).prior, (s.slot i).prior = some k) ∧ (s.supply.lifeCycle = .retired → u.slot i = s.slot i))

/-- A tick that advances T meets each deadline at its own event (R19, R104, R105, R131 to R134, R175): before the event settles, slot by
slot, the life-warned mark is set and LIFE_LOW raised where due, a LIVE CURRENT past its lifetime is EXPIRED with its demand, a PRIOR at its
grace end is gone, a pin at its end is gone with PIN_LAPSED to its holder; each stays where its deadline lies ahead. Then an armed batch whose
activation tick is reached has its flag set. A lapse and a flag so set request the table hold where the commit may start. In RETIRED no slot
changes and no demand is raised. -/
def Obligations.TickMeetsTheDeadlines : Prop :=
  ∀ s : State, s.supply.run ≠ .starting → s.time.deferred = false → s.time.t ≠ LIMIT → s.time.t < s.time.tb →
    ∃ u : State, exec .tick s = .next u.settle ∧ u.time.t = s.time.t + 1 ∧ s.DeadlinesMet (s.time.t + 1) u

/-- Part time never exceeds Tb, a checkpoint in flight carries a larger bound, and neither T nor Tb falls except through an abort or
the start-up after it (R124, R125, R126): every step keeps the law. -/
def Obligations.PartTimeLawIsKept : Prop :=
  ∀ s t : State, s.time.Lawful → step s = .next t → t.time.Lawful ∧
    ((∀ cut, s.pending.head? ≠ some (.rstnLow cut) ∧ s.pending.head? ≠ some (.supplyLoss cut)) →
      (∀ a b, s.pending.head? ≠ some (.rstnRelease a b) ∧ s.pending.head? ≠ some (.supplyReturn a b)) →
      s.time.t ≤ t.time.t ∧ s.time.tb ≤ t.time.tb)

/-- The completion of a TIME record (R126, R127, R131, R146, R147): Tb takes its value, a deferred tick is taken as a tick that advances T and
meets the deadlines, and the checkpoint test is made, whose TIME record follows in the queue; of the ring only the write position is written.
With no write of checking in the place list, the journal is as the record leaves it: it is live, the TIME record before it is stale, and the
write position has moved on; and with no deferred tick no slot, demand queue, flag or hold changes. -/
def Obligations.TimeRecordCompletes : Prop :=
  ∀ (s : State) (v : Nat) (rest : List Entry),
    s.journal.queue = ⟨.append (.time v), .time⟩ :: rest → s.journal.toCopy = none → s.time.checkpoint = some v →
    ∃ u : State, exec .writeComplete s = .next u.settle ∧ u.settle.time = u.time ∧
      u.time.tb = v ∧ u.time.deferred = false ∧ u.time.code = s.time.code ∧
      u.time.t = (if s.time.deferred then s.time.t + 1 else s.time.t) ∧
      u.time.checkpoint = (if (s.supply.run = .run ∨ s.supply.run = .flush) ∧ v < LIMIT ∧ v ≤ u.time.t + 32
        then some (min (u.time.t + 64) LIMIT) else none) ∧
      (s.journal.place = [] → rest.length < 8 → u.journal.queue = rest ++
        (match u.time.checkpoint with | some w => [⟨.append (.time w), .time⟩] | none => [])) ∧
      u.supply = s.supply ∧ u.portM = s.portM ∧ u.portL = s.portL ∧ u.journal.banks = s.journal.banks ∧
      cellGet s.journal.writePosition u.journal.ring = some (.record (.made s.journal.lap (.time v))) ∧
      (∀ k, k ≠ s.journal.writePosition → cellGet k u.journal.ring = cellGet k s.journal.ring) ∧
      ((∀ e ∈ s.journal.place, e.requester.ofBatch = false) → s.journal.AppendStands true (.time v) u.journal ∧
        (s.time.deferred = true → s.supply.run ≠ .starting → s.DeadlinesMet (s.time.t + 1) u) ∧
        (s.time.deferred = false → u.slots = s.slots ∧ u.queueM = s.queueM ∧ u.queueL = s.queueL ∧ u.renewal = s.renewal ∧
          u.arbiter = s.arbiter))

/-! ## The staging window -/

/-- The second beat and the staging window (R78, R123, R136): in STAGING the window count rises by 1; at 120 the window expires: the state
becomes IDLE, the header and the buffer are discarded, the result is the staged sequence REFUSED TIMEOUT with an empty list, and
BATCH_REFUSED goes to both queues. In any other state a beat changes nothing. That the beat that brings the count to 120 makes the expiry
itself, so that the row of its own finds it due only at a count of 120, is the model's choice (log entry 15). -/
def Obligations.SecondBeatCountsTheWindow : Prop :=
  ∀ s : State, (s.renewal.state ≠ .staging → exec .secondBeat s = .next s) ∧
    (s.renewal.state = .staging →
      let counted := { s with renewal := { s.renewal with windowCount := s.renewal.windowCount + 1 } }
      (s.renewal.windowCount + 1 < 120 → exec .secondBeat s = .next counted) ∧
      (120 ≤ s.renewal.windowCount + 1 → exec .secondBeat s = exec .stagingWindowExpiry counted) ∧
      (s.renewal.windowCount < 120 → exec .stagingWindowExpiry s = .next s) ∧
      (120 ≤ s.renewal.windowCount → ∃ t : State, exec .stagingWindowExpiry s = .next t ∧ t.renewal.state = .idle ∧
        t.renewal.header = none ∧ t.renewal.buffer = [] ∧
        t.renewal.result = ⟨s.renewal.sequence, .refused .timeout, []⟩ ∧ t.renewal.lastCommitted = s.renewal.lastCommitted ∧
        t.commit = s.commit ∧ t.engine = s.engine.map EngineOp.detached ∧
        t.queueM = arrive s.queueM ⟨.batchRefused, none, none, some s.renewal.sequence, s.time.t⟩ ∧
        t.queueL = arrive s.queueL ⟨.batchRefused, none, none, some s.renewal.sequence, s.time.t⟩ ∧
        t.journal.ring = s.journal.ring ∧ t.journal.banks = s.journal.banks ∧ t.time = s.time ∧ t.supply = s.supply ∧
        t.portM = s.portM ∧ t.portL = s.portL ∧ ∀ i, t.slot i = { s.slot i with next := none }))


/-! ## Deadlines -/

/-- The life warning (R133): a CURRENT with a lifetime, its mark clear and not EXPIRED, where Wl > 0 and T ≥ A + L − Wl, has its mark set
and LIFE_LOW raised by the notify map; nothing else changes. -/
def Obligations.LifeWarningRaisesLifeLow : Prop :=
  ∀ (s : State) (i : Fin 24) (k : Current) (y : Policy) (l : Nat), s.supply.run ≠ .starting → s.supply.lifeCycle ≠ .retired →
    (s.slot i).current = some k → (s.slot i).policy = some y → k.lifetime = some l →
    (k.lifeWarned = false → k.state ≠ .expired → 0 < y.lifeWarn → k.activation + l ≤ s.time.t + y.lifeWarn →
      exec (.lifeWarning i.val) s =
        .next (s.slotDemand i { s.slot i with current := some { k with lifeWarned := true } }
          ⟨.lifeLow, some i, some k.generation, none, s.time.t⟩)) ∧
    (k.lifeWarned = true ∨ k.state = .expired ∨ y.lifeWarn = 0 ∨ s.time.t + y.lifeWarn < k.activation + l →
      exec (.lifeWarning i.val) s = .next s)

/-- The expiry (R132): a LIVE CURRENT with T ≥ A + L becomes EXPIRED and EXPIRED is raised by the notify map; a cell in SPENT or EXPIRED,
or before its deadline, or without a lifetime, is not changed. -/
def Obligations.ExpiryExpiresTheCell : Prop :=
  ∀ (s : State) (i : Fin 24) (k : Current), s.supply.run ≠ .starting → s.supply.lifeCycle ≠ .retired →
    (s.slot i).current = some k →
    (∀ l, k.lifetime = some l → k.state = .live → k.activation + l ≤ s.time.t →
      exec (.expiry i.val) s =
        .next (s.slotDemand i { s.slot i with current := some { k with state := .expired } }
          ⟨.expired, some i, some k.generation, none, s.time.t⟩)) ∧
    (k.state ≠ .live ∨ k.lifetime = none ∨ (∃ l ∈ k.lifetime, s.time.t < k.activation + l) →
      exec (.expiry i.val) s = .next s)

/-- The grace end (R134): a PRIOR with T ≥ Ge is removed with no demand; before it the PRIOR stays. In RETIRED no deadline is evaluated
(R175). -/
def Obligations.GraceEndRemovesThePrior : Prop :=
  ∀ (s : State) (i : Fin 24) (k : Prior), s.supply.run ≠ .starting → (s.slot i).prior = some k →
    (s.supply.lifeCycle ≠ .retired → k.graceEnd ≤ s.time.t →
      exec (.graceEnd i.val) s = .next (s.setSlot i { s.slot i with prior := none })) ∧
    (s.supply.lifeCycle = .retired ∨ s.time.t < k.graceEnd → exec (.graceEnd i.val) s = .next s)

/-- The lapse of a pin (R19): at T ≥ pin end the pin is removed and PIN_LAPSED goes to the holder's queue alone, whatever the notify map;
then the commit start test is made, which outside RUN starts nothing. -/
def Obligations.PinLapseRemovesThePin : Prop :=
  ∀ (s : State) (i : Fin 24) (k : Pin), s.supply.run ≠ .starting → s.supply.lifeCycle ≠ .retired →
    (s.slot i).pin = some k → k.pinEnd ≤ s.time.t →
    let d : Demand := ⟨.pinLapsed, some i, some k.generation, none, s.time.t⟩
    let u := (s.setSlot i { s.slot i with pin := none }).setQueue k.holder (arrive (s.queue k.holder) d)
    exec (.pinLapse i.val) s = .next u.commitStart.settle ∧
    (s.supply.run ≠ .run → s.AtRest → exec (.pinLapse i.val) s = .next u)

/-- Scheduled activation (R104, R105): an armed batch with its disarm mark and its flag clear and T ≥ its activation tick has its flag set.
Outside RUN, or with a named slot pinned, nothing else happens; in RUN with no named slot pinned the table hold is requested. A batch
whose tick is not reached, or whose disarm mark is set, is not changed. -/
def Obligations.ScheduledActivationSetsTheFlag : Prop :=
  ∀ (s : State) (a : Nat), s.renewal.state = .armed → s.renewal.activationTick = some a → s.supply.run ≠ .starting → s.AtRest →
    let u := { s with renewal := { s.renewal with activation := true } }
    (s.renewal.disarm = false → s.renewal.activation = false → a ≤ s.time.t →
      (s.supply.run ≠ .run ∨ s.namedPinned = true → exec .scheduledActivation s = .next u) ∧
      (s.supply.run = .run → s.namedPinned = false → s.arbiter.hold = .none →
        exec .scheduledActivation s = .next (State.settle { u with arbiter := { s.arbiter with hold := .requested } }))) ∧
    (s.renewal.disarm = true ∨ s.renewal.activation = true ∨ s.time.t < a → exec .scheduledActivation s = .next s)

/-! ## The ports -/

/-- A byte of an open write frame (R190): the first row of the table that applies gives the answer and the effect, the frame comes one
byte further, and the bus timer restarts; nothing else of the part changes. Outside WRITE the port ignores the byte. That the frame comes
one byte further at a byte answered NACK too, and that a command byte drops the length and payload of the frame before, are the model's
inferences (log entry 25). -/
def Obligations.WriteByteTable : Prop :=
  ∀ (p : Port) (b : Byte) (s : State), let r := s.port p
    (r.framing ≠ .write → exec (.writeByte p b) s = .next s) ∧
    (r.framing = .write →
      let next (r' : PortRecord) : Prop := exec (.writeByte p b) s = .next (s.setPort p { r' with busTimer := .running })
      let ph : RxPhase := match r.phase with | .address => .command | .command => .length | .length => .length
      let nack := { r with phase := ph, answer := some .nack, latch := true }
      let ack := { r with phase := ph, answer := some .ack }
      (r.latch = true → next nack) ∧
      (r.latch = false → r.phase = .address → r.request.isSome = true → next nack) ∧
      (r.latch = false → r.phase = .address → r.request = none →
        next { ack with buffer := ⟨r.buffer.address, some b, none, []⟩ }) ∧
      (r.latch = false → r.phase = .command → 224 < b.toNat → next nack) ∧
      (r.latch = false → r.phase = .command → b.toNat ≤ 224 →
        next { ack with byteCount := b.toNat, buffer := { r.buffer with length := some b } }) ∧
      (r.latch = false → r.phase = .length → 0 < r.byteCount →
        next { ack with byteCount := r.byteCount - 1, buffer := { r.buffer with payload := r.buffer.payload ++ [b] } }) ∧
      (r.latch = false → r.phase = .length → r.byteCount = 0 → next nack))

/-- A START with an address byte (R189, R191, R192, R197). At a port in IDLE the port's own address with the write bit, where the port
acknowledges it, opens a frame: ACK, framing WRITE, the latch cleared, the bus timer started; any other address byte, or any while the port
does not acknowledge, is not acknowledged in either direction: the latch is cleared and nothing else changes. In WRITE and READ a START is a
repeated START: the open transfer first ends as a STOP would end it (a complete frame is taken by its command row, any other is dropped, a
read ends), and the address byte then counts for the port in IDLE. In STRETCH the port holds SCL and no START comes (log entry 15). That a
repeated START is the transfer row itself is the model's choice (log entries 2, 24). -/
def Obligations.WriteTransferOpensAFrame : Prop :=
  ∀ (p : Port) (addr : BitVec 7) (s : State), let r := s.port p
    (r.framing = .idle →
      (addr = r.address → s.acknowledges = true →
        exec (.writeTransfer p addr) s = .next (s.setPort p { r with
          framing := .write, latch := false, busTimer := .running, phase := .address, byteCount := 0, answer := some .ack,
          buffer := if r.request.isSome then r.buffer
            else { r.buffer with address := some (BitVec.ofNat 8 (2 * addr.toNat)) } })) ∧
      (addr ≠ r.address ∨ s.acknowledges = false →
        let t := s.setPort p { r with latch := false, busTimer := .stopped, answer := some .nack }
        exec (.writeTransfer p addr) s = .next t ∧ exec (.readTransfer p addr) s = .next t)) ∧
    (r.framing = .stretch → exec (.writeTransfer p addr) s = .next s) ∧
    (r.framing = .write ∨ r.framing = .read → (r.frameComplete = true → r.buffer.command.isSome = true) →
      ∃ u : State, s.ClosedBy p u ∧ exec (.writeTransfer p addr) s = exec (.writeTransfer p addr) u)


/-- A START and the port's own address with the read bit (R189, R196, R197): a reply, or NO_REPLY, is sent from its first byte with the
framing state READ, and FFh for each byte clocked after its last; NOT_READY stretches the clock. In WRITE and READ the START is a repeated
START: the open transfer first ends as a STOP would end it. A read changes no state but the port's framing, its timers and what it drives on
its lines. In STRETCH no START comes (log entry 15). That a repeated START is the transfer row itself is the model's choice (log entries 2,
24). -/
def Obligations.ReadTransferServesTheReply : Prop :=
  ∀ (p : Port) (s : State),
    let r := { s.port p with latch := false, answer := some Answer.ack }
    let serves (bytes : List Byte) : Prop :=
      let t := s.setPort p { r with framing := .read, busTimer := .running, sending := bytes }
      exec (.readTransfer p r.address) s = .next t ∧ ∀ n, (t.port p).sends n = some (bytes.getD n 0xFF)
    (r.framing = .idle → s.acknowledges = true →
      (∀ st payload, r.reply = .reply st payload → serves (st.code :: BitVec.ofNat 8 payload.length :: payload)) ∧
      (r.reply = .noReply → serves [0x03, 0x00]) ∧
      (r.reply = .notReady →
        let t := s.setPort p { r with framing := .stretch, busTimer := .stopped, stretchTimer := .running, sending := [] }
        exec (.readTransfer p r.address) s = .next t ∧ t.holdsClock p = true ∧ ∀ n, (t.port p).sends n = none)) ∧
    (∀ addr, r.framing = .stretch → exec (.readTransfer p addr) s = .next s) ∧
    ∀ addr, r.framing = .write ∨ r.framing = .read → ((s.port p).frameComplete = true → r.buffer.command.isSome = true) →
      ∃ u : State, s.ClosedBy p u ∧ exec (.readTransfer p addr) s = exec (.readTransfer p addr) u

/-- The end of a stretch (R197). At 20 ms SCL is released and the read sends PENDING with m = 0 and then FFh for each further byte, the
timers change over; the request, the reply buffer and the last refusal code stay. A reply written before that releases SCL and the read
sends it, then FFh. Outside STRETCH the timer does not run and the event changes nothing (log entry 15). -/
def Obligations.StretchTimeoutSendsPending : Prop :=
  ∀ (p : Port) (s : State),
    ((s.port p).framing = .stretch →
      (let t := s.setPort p { s.port p with
         framing := .read, stretchTimer := .stopped, busTimer := .running, sending := [0x01, 0x00] }
       exec (.stretchTimeout p) s = .next t ∧ t.holdsClock p = false ∧
       ∀ n, (t.port p).sends n = some (([0x01, 0x00] : List Byte).getD n 0xFF)) ∧
      ∀ st payload, let t := s.complete p st payload
        (t.port p).framing = .read ∧ (t.port p).stretchTimer = .stopped ∧ (t.port p).busTimer = .running ∧
        (t.port p).request = none ∧ (t.port p).reply = .reply st payload ∧
        ∀ n, (t.port p).sends n = some ((st.code :: BitVec.ofNat 8 payload.length :: payload).getD n 0xFF)) ∧
    ((s.port p).framing ≠ .stretch → exec (.stretchTimeout p) s = .next s)

/-- The bus timeout (R198): a write frame without a command byte leaves nothing; one with it is discarded, complete or not, with
BAD_LENGTH as the last refusal and, with no request in flight, as the reply; a read ends. IDLE and STRETCH are not reached by it. -/
def Obligations.BusTimeoutDropsTheTransfer : Prop :=
  ∀ (p : Port) (s : State), let r := s.port p
    let idle := { r with framing := .idle, busTimer := .stopped }
    (r.framing = .write → r.phase = .address → exec (.busTimeout p) s = .next (s.setPort p idle)) ∧
    (r.framing = .write → r.phase ≠ .address → r.request = none →
      exec (.busTimeout p) s = .next (s.setPort p
        { idle with byteCount := 0, lastRefusal := .badLength, reply := .reply .badLength [] })) ∧
    (r.framing = .write → r.phase ≠ .address → r.request.isSome = true →
      exec (.busTimeout p) s = .next (s.setPort p { idle with byteCount := 0, lastRefusal := .badLength })) ∧
    (r.framing = .read → exec (.busTimeout p) s = .next (s.setPort p idle)) ∧
    (r.framing = .idle ∨ r.framing = .stretch → exec (.busTimeout p) s = .next s)

/-- A STOP that takes no frame (R192, R196): an open frame that is not complete is dropped as the table gives, and a read ends. That the row
is the STOP itself, so that it ends a read and leaves a complete frame to its own row, is the model's choice (log entries 24, 2), and so is
that the reply replaced is looked up at the close, as R192 has it (log entry 40). -/
def Obligations.FrameDiscardAnswersBadLength : Prop :=
  ∀ (p : Port) (s : State), let r := s.port p
    let idle := { r with framing := .idle, busTimer := .stopped }
    (r.framing = .write → r.phase = .address → exec (.frameDiscard p) s = .next (s.setPort p idle)) ∧
    (r.framing = .write → r.phase ≠ .address → r.latch = true ∨ r.phase = .command ∨ 0 < r.byteCount →
      exec (.frameDiscard p) s = .next (s.setPort p
        { idle with byteCount := 0, lastRefusal := .badLength,
                    reply := if r.request.isSome then r.reply else .reply .badLength [] })) ∧
    (r.framing = .write → r.latch = false → r.phase = .length → r.byteCount = 0 → exec (.frameDiscard p) s = .next s) ∧
    (r.framing = .read → exec (.frameDiscard p) s = .next (s.setPort p idle)) ∧
    (r.framing = .idle ∨ r.framing = .stretch → exec (.frameDiscard p) s = .next s)

/-- A complete frame whose command byte names no command is completed UNKNOWN_COMMAND at once, whatever its payload (R194, R202). -/
def Obligations.UnknownCommandIsRefused : Prop :=
  ∀ (p : Port) (s : State) (b : Byte), s.Holds p b → s.AtRest →
    b ∉ ([0x10, 0x11, 0x12, 0x13, 0x20, 0x21, 0x22, 0x30, 0x31, 0x32, 0x33, 0x34, 0x35] : List Byte) →
    exec (.unknownCommand p) s = .next (s.answered p .unknownCommand [])

/-- The checks of R202, layout by layout (R75, R202 to R204, chapter 11), and what a frame they refuse does. Of each command the statement says
which payloads pass and with which fields, and which are BAD_FIELD or NO_SLOT: the length, the reserved and stray flag bits, each value's
range, a slot byte above 23 where R202 checks it, fields in payload order. A refused frame is completed at the event it is taken and changes
no other state: it does not reach the arbiter or the renewal engine. That a required field whose flag is clear fails at its own place is the
model's choice (log entry 10). -/
def Obligations.FrameChecksComeFirst : Prop :=
  (∀ (p : Port) (s : State) (e : Status), s.AtRest →
    let b := s.payload p
    (s.Holds p 0x10 → makeTagFrame b = .error e → exec (.makeTag p) s = .next (s.answered p e [])) ∧
    (s.Holds p 0x11 → checkTagFrame b = .error e → exec (.checkTag p) s = .next (s.answered p e [])) ∧
    (s.Holds p 0x12 → pinFrame b = .error e → exec (.pin p) s = .next (s.answered p e [])) ∧
    (s.Holds p 0x13 → pinFrame b = .error e → exec (.unpin p) s = .next (s.answered p e [])) ∧
    (s.Holds p 0x20 → slotStatusFrame b = .error e → exec (.slotStatus p) s = .next (s.answered p e [])) ∧
    (s.Holds p 0x21 → emptyFrame b = .error e → exec (.partStatus p) s = .next (s.answered p e [])) ∧
    (s.Holds p 0x22 → emptyFrame b = .error e → exec (.readDemand p) s = .next (s.answered p e [])) ∧
    (s.Holds p 0x30 → batchOpenFrame b = .error e → exec (.batchOpen p) s = .next (s.answered p e [])) ∧
    (s.Holds p 0x31 → batchStepFrame b = .error e → exec (.batchStep p) s = .next (s.answered p e [])) ∧
    (s.Holds p 0x32 → batchCloseFrame b = .error e → exec (.batchClose p) s = .next (s.answered p e [])) ∧
    (s.Holds p 0x33 → emptyFrame b = .error e → exec (.batchResult p) s = .next (s.answered p e [])) ∧
    (s.Holds p 0x34 → sequenceFrame b = .error e → exec (.activate p) s = .next (s.answered p e [])) ∧
    (s.Holds p 0x35 → sequenceFrame b = .error e → exec (.cancel p) s = .next (s.answered p e []))) ∧
  ∀ b : List Byte,
    let k := b.length
    let bad {α : Type} : Checked α := .error .badField
    -- MAKE_TAG, CHECK_TAG, PIN and UNPIN, SLOT_STATUS, the commands without a payload
    makeTagFrame b = (if 2 ≤ k ∧ k ≤ 194 ∧ fieldAt 1 1 b = 0 then .ok (fieldAt 0 1 b, none)
      else if 4 ≤ k ∧ k ≤ 196 ∧ fieldAt 1 1 b = 1 ∧ fieldAt 2 2 b ≠ 0 then .ok (fieldAt 0 1 b, some (fieldAt 2 2 b)) else bad) ∧
    checkTagFrame b = (if 15 ≤ k ∧ k ≤ 207 ∧ fieldAt 1 2 b ≠ 0
      then .ok (fieldAt 0 1 b, fieldAt 1 2 b, fieldAt 3 4 b, BitVec.ofNat 64 (fieldAt 7 8 b)) else bad) ∧
    (k ≠ 1 → pinFrame b = bad ∧ slotStatusFrame b = bad) ∧
    (∀ x, b = [x] → pinFrame b = .ok x.toNat ∧
      slotStatusFrame b = (if h : x.toNat < 24 then .ok ⟨x.toNat, h⟩ else .error .noSlot)) ∧
    emptyFrame b = (if b = [] then .ok () else bad) ∧
    -- BATCH_OPEN, BATCH_CLOSE, ACTIVATE and CANCEL
    batchOpenFrame b = (if k = 7 ∧ fieldAt 0 4 b ≠ 0 ∧ 1 ≤ fieldAt 4 1 b ∧ fieldAt 4 1 b ≤ 8
      then .ok ⟨fieldAt 0 4 b, some (fieldAt 4 1 b), some (fieldAt 5 2 b), b⟩ else bad) ∧
    batchCloseFrame b = (if k = 8 then .ok (BitVec.ofNat 64 (fieldAt 0 8 b)) else bad) ∧
    sequenceFrame b = (if k = 4 ∧ fieldAt 0 4 b ≠ 0 then .ok (fieldAt 0 4 b) else bad) ∧
    -- BATCH_STEP, by kind; the fields after the flags stand in `rest`, and the slot byte is its first
    (k < 3 → batchStepFrame b = bad) ∧
    ∀ index kind flags rest, b = index :: kind :: flags :: rest →
      let has (i : Nat) : Bool := flags.getLsbD i
      let size (i n : Nat) : Nat := if has i then n else 0
      let form (stray : List Nat) (n : Nat) : Prop :=
        index.toNat ≤ 7 ∧ has 0 = true ∧ (∀ i ∈ stray, has i = false) ∧ rest.length = n
      let sets (off : Nat) : PortSet := ⟨(bytesAt off 1 rest).any (·.getLsbD 0), (bytesAt off 1 rest).any (·.getLsbD 1)⟩
      let policyOk (off : Nat) : Prop := fieldAt off 2 rest ≠ 0 ∧ fieldAt (off + 8) 1 rest ≤ 1
      let policyAt (off : Nat) : Policy := ⟨fieldAt off 2 rest, fieldAt (off + 2) 1 rest, fieldAt (off + 3) 2 rest,
        fieldAt (off + 5) 2 rest, fieldAt (off + 7) 1 rest, if fieldAt (off + 8) 1 rest = 0 then .carryOn else .restart⟩
      let answers (f ok : Prop) (part : Fin 24 → StepPart) : Prop :=
        (¬ f → batchStepFrame b = bad) ∧ (f → 24 ≤ fieldAt 0 1 rest → batchStepFrame b = .error .noSlot) ∧
        (f → ¬ ok → fieldAt 0 1 rest < 24 → batchStepFrame b = bad) ∧
        (f → ok → ∀ h : fieldAt 0 1 rest < 24, batchStepFrame b = .ok ⟨index.toNat, has 1, part ⟨fieldAt 0 1 rest, h⟩, b⟩)
      (kind.toNat = 0 ∨ 5 < kind.toNat → batchStepFrame b = bad) ∧
      (kind = 0x01 →
        let life := 27
        let budget := life + size 2 3
        let define := budget + size 3 3
        let policy := define + size 4 3
        let ok : Prop := fieldAt 1 2 rest ≠ 0 ∧ (has 2 = true → fieldAt life 3 rest ≠ 0) ∧
          (has 3 = true → fieldAt budget 3 rest ≠ 0) ∧
          (has 4 = true → has 5 = true ∧ (fieldAt define 1 rest = 1 ∨ fieldAt define 1 rest = 2) ∧
            1 ≤ fieldAt (define + 1) 1 rest ∧ fieldAt (define + 1) 1 rest ≤ 3 ∧ fieldAt (define + 2) 1 rest ≤ 3) ∧
          (has 5 = true → policyOk policy)
        answers (form [6, 7] (policy + size 5 9)) ok fun i =>
          .install i (fieldAt 1 2 rest) (BitVec.ofNat 192 (fieldAt 3 24 rest))
            (if has 2 then some (fieldAt life 3 rest) else none) (if has 3 then some (fieldAt budget 3 rest) else none)
            (if has 4 then some ⟨if fieldAt define 1 rest = 1 then .issue else .accept, sets (define + 1), sets (define + 2)⟩ else none)
            (if has 5 then some (policyAt policy) else none)) ∧
      (kind = 0x02 →
        let user := 1 + size 5 9
        let notify := user + size 6 1
        let ok : Prop := has 5 = true ∧ policyOk 1 ∧ (has 6 = true → 1 ≤ fieldAt user 1 rest ∧ fieldAt user 1 rest ≤ 3) ∧
          (has 7 = true → fieldAt notify 1 rest ≤ 3)
        answers (form [2, 3, 4] (notify + size 7 1)) ok fun i =>
          .policy i (policyAt 1) (if has 6 then some (sets user) else none) (if has 7 then some (sets notify) else none)) ∧
      (kind = 0x03 → answers (form [2, 3, 4, 5, 6, 7] 1) True .clear) ∧
      (kind = 0x04 → answers (form [2, 3, 4, 5, 6, 7] 1) True .endGrace) ∧
      (kind = 0x05 → let plain : Prop := index.toNat ≤ 7 ∧ ∀ i ∈ [0, 2, 3, 4, 5, 6, 7], has i = false
        (∀ c, plain → rest = [0x01, c] → c.toNat ≤ 7 →
          batchStepFrame b = .ok ⟨index.toNat, has 1, .lifecycle .operational (some c.toNat), b⟩) ∧
        (plain → rest = [0x02] → batchStepFrame b = .ok ⟨index.toNat, has 1, .lifecycle .retired none, b⟩) ∧
        (¬ plain ∨ (rest ≠ [0x02] ∧ ∀ c, rest = [0x01, c] → 7 < c.toNat) → batchStepFrame b = bad))

/-! ## Status commands -/

/-- SLOT_STATUS (R21): the slot's contents as they stand, laid out by chapter 11, from either port; a slot byte above 23 is NO_SLOT, any
other payload length BAD_FIELD. No other state changes. That the NEXT cell of a slot still EMPTY is reported too is the model's reading
(log entry 41). -/
def Obligations.SlotStatusReportsTheSlot : Prop :=
  ∀ (p : Port) (s : State) (b : Byte), s.Holds p 0x20 → s.AtRest →
    (∀ i : Fin 24, s.payload p = [b] → b.toNat = i.val →
      exec (.slotStatus p) s = .next (s.answered p .ok (slotStatusReply i (s.slot i)))) ∧
    (s.payload p = [b] → 24 ≤ b.toNat → exec (.slotStatus p) s = .next (s.answered p .noSlot [])) ∧
    ((s.payload p).length ≠ 1 → exec (.slotStatus p) s = .next (s.answered p .badField []))

/-- PART_STATUS (R201): life-cycle state, run state, T, tick period code, renewal engine state, F0 where slot 0 holds a CURRENT, and both
last refusal codes, as they stood before the take. -/
def Obligations.PartStatusReportsThePart : Prop :=
  ∀ (p : Port) (s : State), s.Holds p 0x21 → s.AtRest → s.payload p = [] →
    (∀ k f g, (s.slot 0).current = some k → k.counters = .floor f g →
      exec (.partStatus p) s = .next (s.answered p .ok
        ([s.supply.lifeCycle.code, s.supply.run.code] ++ beBytes 4 s.time.t ++
         [BitVec.ofNat 8 s.time.code, s.renewal.state.code, 0x01] ++ beBytes 4 f ++
         [s.portM.lastRefusal.code, s.portL.lastRefusal.code]))) ∧
    ((s.slot 0).current = none →
      exec (.partStatus p) s = .next (s.answered p .ok
        ([s.supply.lifeCycle.code, s.supply.run.code] ++ beBytes 4 s.time.t ++
         [BitVec.ofNat 8 s.time.code, s.renewal.state.code, 0x00] ++
         [s.portM.lastRefusal.code, s.portL.lastRefusal.code])))

/-- READ_DEMAND (R182): the oldest entry of the port's own queue is removed and reported with the count left, or the count 0 where the
queue is empty; the other queue and everything else stay. -/
def Obligations.ReadDemandTakesTheOldest : Prop :=
  ∀ (p : Port) (s : State), s.Holds p 0x22 → s.AtRest → s.payload p = [] →
    (s.queue p = [] → exec (.readDemand p) s = .next (s.answered p .ok [0x00])) ∧
    (∀ d rest, s.queue p = d :: rest →
      let u := (s.setQueue p rest).answered p .ok (BitVec.ofNat 8 rest.length :: d.bytes)
      exec (.readDemand p) s = .next u ∧ u.attention p = !rest.isEmpty ∧ u.queue p.other = s.queue p.other)

/-- The replies of SLOT_STATUS, PART_STATUS, READ_DEMAND and BATCH_RESULT, and all they change, do not depend on the contents of the image
banks (R21, R159, R195). -/
def Obligations.StatusRepliesHideTheKeys : Prop :=
  ∀ (p : Port) (s t : State) (banks : List (Nat × BankCell)) (c : Instr), s.AtRest →
    c ∈ [Instr.slotStatus p, .partStatus p, .readDemand p, .batchResult p] → exec c s = .next t →
    exec c { s with journal := { s.journal with banks := banks } } =
      .next { t with journal := { t.journal with banks := banks } }

/-! ## Demand queues -/

/-- A demand that arrives at a queue (R180), by the first case of the table: dropped behind QUEUE_FULL; an entry of the same kind and slot
takes its generation, sequence and stamp in place; stored at the end; or QUEUE_FULL stored as the 16th. -/
def Obligations.ArrivalTable : Prop :=
  ∀ (q : List Demand) (d : Demand),
    ((∃ e ∈ q, e.kind = .queueFull) → arrive q d = q) ∧
    ((∀ e ∈ q, e.kind ≠ .queueFull) →
      (∀ before e after, q = before ++ e :: after → e.kind = d.kind → e.slot = d.slot →
        (∀ x ∈ before ++ after, x.kind ≠ d.kind ∨ x.slot ≠ d.slot) →
        arrive q d = before ++ ⟨e.kind, e.slot, d.generation, d.sequence, d.stamp⟩ :: after) ∧
      ((∀ x ∈ q, x.kind ≠ d.kind ∨ x.slot ≠ d.slot) →
        (q.length ≤ 14 → arrive q d = q ++ [d]) ∧
        (q.length = 15 → arrive q d = q ++ [⟨.queueFull, none, none, none, d.stamp⟩])))

/-- The law of the demand queues (R178, R181): at most 16 entries, no two of one kind and slot, the 16th always QUEUE_FULL and no entry
behind the marker. Every step keeps it. -/
def Obligations.DemandLawIsKept : Prop :=
  ∀ s t : State, s.DemandsLawful → step s = .next t → t.DemandsLawful


/-! ## Batch commands -/

/-- The checks common to every batch command (R73), in order: RETIRED, FAULT, then NOT_PERMITTED from a port that is not the batch port; a refused
command changes nothing else. -/
def Obligations.BatchCommandsNeedTheBatchPort : Prop :=
  ∀ (p : Port) (s : State) (c : Instr) (code : Byte), s.AtRest → s.Holds p code →
    (c = .batchOpen p ∧ code = 0x30 ∧ (∃ h, batchOpenFrame (s.payload p) = .ok h)) ∨
    (c = .batchStep p ∧ code = 0x31 ∧ (∃ x, batchStepFrame (s.payload p) = .ok x)) ∨
    (c = .batchClose p ∧ code = 0x32 ∧ (∃ a, batchCloseFrame (s.payload p) = .ok a)) ∨
    (c = .batchResult p ∧ code = 0x33 ∧ s.payload p = []) ∨
    (c = .activate p ∧ code = 0x34 ∧ (∃ q, sequenceFrame (s.payload p) = .ok q)) ∨
    (c = .cancel p ∧ code = 0x35 ∧ (∃ q, sequenceFrame (s.payload p) = .ok q)) →
    (s.supply.lifeCycle = .retired → exec c s = .next (s.answered p .retired [])) ∧
    (s.supply.lifeCycle ≠ .retired → s.supply.run = .fault → exec c s = .next (s.answered p .fault [])) ∧
    (s.supply.run ≠ .fault → (s.supply.lifeCycle = .factory ∧ p = .L) ∨ (s.supply.lifeCycle = .operational ∧ p = .M) →
      exec c s = .next (s.answered p .notPermitted []))

/-- BATCH_OPEN at the batch port (R74): in IDLE the header is stored, the buffer empty, the window count 0, the state STAGING, and the
result as it was; in any other state WRONG_STATE. -/
def Obligations.BatchOpenStagesABatch : Prop :=
  ∀ (p : Port) (s : State) (h : Header), s.Holds p 0x30 → s.AtRest → s.BatchPort p → batchOpenFrame (s.payload p) = .ok h →
    h.sequence = fieldAt 0 4 (s.payload p) ∧ h.count = some (fieldAt 4 1 (s.payload p)) ∧
    h.delay = some (fieldAt 5 2 (s.payload p)) ∧ h.bytes = s.payload p ∧
    (1 ≤ h.sequence ∧ h.sequence ≤ LIMIT ∧ (∀ n ∈ h.count, 1 ≤ n ∧ n ≤ 8) ∧ ∀ d ∈ h.delay, d ≤ 65535) ∧
    (s.renewal.state = .idle →
      exec (.batchOpen p) s = .next (({ s with renewal := { s.renewal with
        state := .staging, header := some h, buffer := [], windowCount := 0 } } : State).answered p .ok [])) ∧
    (s.renewal.state ≠ .idle → exec (.batchOpen p) s = .next (s.windowReset.answered p .wrongState []))

/-- BATCH_STEP at the batch port (R76): the checks in order, each with its refusal and the buffer as it was; then the record is added at the
end. The window count returns to 0 either way (R73). -/
def Obligations.BatchStepTable : Prop :=
  ∀ (p : Port) (s : State) (x : StepRecord), s.Holds p 0x31 → s.AtRest → s.BatchPort p →
    batchStepFrame (s.payload p) = .ok x →
    let buf := s.renewal.buffer
    let count := s.renewal.count
    let twice := (∃ i, x.part.slot = some i ∧ ∃ y ∈ buf, y.part.slot = some i) ∨
      (x.part.isLifecycle = true ∧ ∃ y ∈ buf, y.part.isLifecycle = true)
    (s.renewal.state ≠ .staging → exec (.batchStep p) s = .next (s.answered p .wrongState [])) ∧
    (s.renewal.state = .staging → x.index ≠ buf.length ∨ count ≤ buf.length →
      exec (.batchStep p) s = .next (s.windowReset.answered p .stepOrder [])) ∧
    (s.renewal.state = .staging → x.index = buf.length → buf.length < count → twice →
      exec (.batchStep p) s = .next (s.windowReset.answered p .duplicateSlot [])) ∧
    (s.renewal.state = .staging → x.index = buf.length → buf.length < count → ¬ twice →
      exec (.batchStep p) s = .next (({ s with renewal := { s.renewal with
        windowCount := 0, buffer := buf ++ [x] } } : State).answered p .ok []))

/-- BATCH_CLOSE at the batch port (R77): WRONG_STATE outside STAGING, STEP_COUNT where the count differs; otherwise OK at once, the result
CHECKING with an empty list, and checking begins: with a sequence above F0 the authenticator check is presented; with the engine free and
nobody waiting it is granted at once with slot 0's key where it is LIVE, and with the engine busy it waits in the arbiter (R60, R62, R64,
R81). That a part with no CURRENT in slot 0, so with no F0, goes on to the authenticator is the model's inference (log entry 27). -/
def Obligations.BatchCloseBeginsChecking : Prop :=
  ∀ (p : Port) (s : State) (tag : Tag), s.Holds p 0x32 → s.AtRest → s.BatchPort p → batchCloseFrame (s.payload p) = .ok tag →
    (s.renewal.state ≠ .staging → exec (.batchClose p) s = .next (s.answered p .wrongState [])) ∧
    (s.renewal.state = .staging → s.renewal.buffer.length ≠ s.renewal.count →
      exec (.batchClose p) s = .next (s.windowReset.answered p .stepCount [])) ∧
    (s.renewal.state = .staging → s.renewal.buffer.length = s.renewal.count → (∀ f ∈ s.f0, f < s.renewal.sequence) →
      let check : CheckInput := .authenticator s.renewal.sequence s.renewal.message tag
      let u : State := { s with renewal := { s.renewal with
        state := .checking, authenticator := some tag, windowCount := 0, checking := some .authenticator,
        result := ⟨s.renewal.sequence, .checking, []⟩ } }
      (s.EngineIdle → exec (.batchClose p) s = .next (({ u with
        arbiter := { s.arbiter with passed := 0 }
        engine := some (.check true check
          (match (s.slot 0).current with
           | some k => if k.state = .live then some (k.generation, k.bank) else none
           | none => none)) } : State).answered p .ok [])) ∧
      (s.engine.isSome = true → exec (.batchClose p) s =
        .next (({ u with arbiter := { s.arbiter with checking := some check } } : State).answered p .ok [])))

/-- The sequence stage (R80): a batch whose sequence is not above F0 is refused OLD_SEQUENCE at the event its BATCH_CLOSE is taken, with
no checking request, no write and F0 unchanged; so is one equal to F0, and every one where F0 is LIMIT. -/
def Obligations.OldSequenceIsRefused : Prop :=
  ∀ (p : Port) (s : State) (tag : Tag) (f : Nat), s.Holds p 0x32 → s.AtRest → s.BatchPort p →
    batchCloseFrame (s.payload p) = .ok tag → s.renewal.state = .staging → s.renewal.buffer.length = s.renewal.count →
    s.f0 = some f → s.renewal.sequence ≤ f →
    ∃ t : State, exec (.batchClose p) s = .next t ∧ (t.port p).reply = .reply .ok [] ∧ t.renewal.state = .idle ∧
      t.renewal.result = ⟨s.renewal.sequence, .refused .oldSequence, []⟩ ∧ t.arbiter.checking = none ∧
      t.engine = s.engine.map EngineOp.detached ∧ t.journal.ring = s.journal.ring ∧ t.journal.banks = s.journal.banks ∧
      (∀ e ∈ t.journal.queue ++ t.journal.place, ∃ e' ∈ s.journal.queue ++ s.journal.place, e'.write = e.write) ∧
      t.f0 = some f ∧
      t.queueM = arrive s.queueM ⟨.batchRefused, none, none, some s.renewal.sequence, s.time.t⟩ ∧
      t.queueL = arrive s.queueL ⟨.batchRefused, none, none, some s.renewal.sequence, s.time.t⟩

/-- BATCH_RESULT at the batch port (R93): the result as it stands, in every state of the renewal engine; the window count returns to 0 in
STAGING and nothing else changes. -/
def Obligations.BatchResultReportsTheResult : Prop :=
  ∀ (p : Port) (s : State), s.Holds p 0x33 → s.AtRest → s.BatchPort p → s.payload p = [] →
    let r := s.renewal.result
    let reasons : List Byte := match r.outcome with
      | .refused (.stepFailed i y) => [0x03, 0x03, BitVec.ofNat 8 i, y.code]
      | .refused y => [0x01, y.code]
      | _ => [0x00]
    exec (.batchResult p) s = .next (s.windowReset.answered p .ok
      (beBytes 4 r.sequence ++ [r.outcome.code] ++ reasons ++ [BitVec.ofNat 8 r.steps.length] ++ r.steps.map StepOutcome.code))

/-- ACTIVATE at the batch port (R103), the first case that applies. In ARMED with the batch's own sequence the flag is set: DEFERRED while a
named slot is pinned; otherwise OK with the hold requested, and with the engine free and nobody waiting the hold is granted at once (R64,
R105, R110): COMMITTING, Tc taken, COMMIT_BEGIN handed over. -/
def Obligations.ActivateTable : Prop :=
  ∀ (p : Port) (s : State) (q : Nat), s.Holds p 0x34 → s.AtRest → s.BatchPort p → sequenceFrame (s.payload p) = .ok q →
    let same := q = s.renewal.sequence
    (s.renewal.state = .staging ∨ s.renewal.state = .checking →
      exec (.activate p) s = .next (s.windowReset.answered p .wrongState [])) ∧
    (s.renewal.state = .idle → q = s.renewal.lastCommitted → exec (.activate p) s = .next (s.answered p .tooLate [])) ∧
    (s.renewal.state = .idle → q ≠ s.renewal.lastCommitted → exec (.activate p) s = .next (s.answered p .wrongState [])) ∧
    (s.renewal.state = .armed ∨ s.renewal.state = .committing → ¬ same →
      exec (.activate p) s = .next (s.answered p .wrongBatch [])) ∧
    (s.renewal.state = .committing → same → exec (.activate p) s = .next (s.answered p .tooLate [])) ∧
    (s.renewal.state = .armed → same → s.renewal.disarm = false → s.arbiter.hold = .none → s.namedPinned = true →
      exec (.activate p) s = .next (({ s with renewal := { s.renewal with activation := true } } : State).answered p .deferred [])) ∧
    (s.renewal.state = .armed → same → s.renewal.disarm = false → s.arbiter.hold = .none → s.namedPinned = false →
      s.engine.isSome = true →
      exec (.activate p) s = .next (({ s with
        renewal := { s.renewal with activation := true }
        arbiter := { s.arbiter with hold := .requested } } : State).answered p .ok [])) ∧
    (s.renewal.state = .armed → same → s.renewal.disarm = false → s.arbiter.hold = .requested →
      exec (.activate p) s = .next (({ s with renewal := { s.renewal with activation := true } } : State).answered p .ok [])) ∧
    (s.renewal.state = .armed → same → s.renewal.disarm = false → s.EngineIdle → s.inCharge p.other = false →
      s.namedPinned = false →
      exec (.activate p) s = .next ((({ s with
        renewal := { s.renewal with activation := true, state := .committing }
        arbiter := { s.arbiter with hold := .granted }
        commit := some ⟨s.time.t, false, .begin, [], none, []⟩ } : State).handed
          (.append (.commitBegin s.renewal.sequence s.time.t)) .commitBegin).answered p .ok []))

/-- CANCEL at the batch port (R94, R95, R96), the first case that applies. A batch in STAGING, or in CHECKING before its ARM record, ends at
once, CANCELLED: the write in service completes, its waiting bank writes leave the queue, its writes leave the place list, the freed places
go to the writes that remain there, no write reports to it any more, and its STEP records are stale (R90, R91, R145). An armed batch has
its disarm mark set, its flag cleared and a requested hold withdrawn (R109), and the DISARM record is handed over while the CANCEL stays in
flight; then the event settles, which grants nothing where no port, resumed operation or checking request waits. In CHECKING after the ARM
record was handed over the CANCEL waits for it. -/
def Obligations.CancelTable : Prop :=
  ∀ (p : Port) (s : State) (q : Nat), s.Holds p 0x35 → s.AtRest → s.BatchPort p → sequenceFrame (s.payload p) = .ok q →
    let r := s.renewal
    let waiting := s.setPort p ((s.port p).inFlight (.cancel q))
    (r.state = .idle → exec (.cancel p) s = .next (s.answered p .wrongState [])) ∧
    (r.state ≠ .idle → q ≠ r.sequence → exec (.cancel p) s = .next (s.windowReset.answered p .wrongBatch [])) ∧
    (r.state = .committing → q = r.sequence → exec (.cancel p) s = .next (s.answered p .tooLate [])) ∧
    (r.state = .staging ∨ (r.state = .checking ∧ r.checking ≠ some .arm) → q = r.sequence →
      ∃ t : State, exec (.cancel p) s = .next t ∧ (t.port p).reply = .reply .ok [] ∧ t.renewal.state = .idle ∧
        t.renewal.header = none ∧ t.renewal.buffer = [] ∧
        t.renewal.result = ⟨r.sequence, .cancelled, if r.state = .staging then [] else r.result.steps⟩ ∧
        t.arbiter.checking = none ∧ t.engine = s.engine.map EngineOp.detached ∧
        (∀ i, t.slot i = { s.slot i with next := none }) ∧ t.queueM = s.queueM ∧ t.queueL = s.queueL ∧
        t.journal.ring = s.journal.ring ∧ t.journal.banks = s.journal.banks ∧ t.time = s.time ∧ t.supply = s.supply ∧
        (∀ e ∈ t.journal.queue ++ t.journal.place, e.requester ≠ .checkFloor true ∧ (∀ i, e.requester ≠ .checkBank true i) ∧
          ∀ last, e.requester ≠ .checkStep true last) ∧
        (let queue := s.journal.queue.take 1 ++ (s.journal.queue.drop 1).filter fun e => decide (∀ i, e.requester ≠ .checkBank true i)
         let place := s.journal.place.filter fun e => !e.requester.ofBatch
         let writes := (queue ++ place).map fun e => e.write
         s.journal.queue.length ≤ 8 →
           t.journal.queue.map (fun e => e.write) = writes.take 8 ∧ t.journal.place.map (fun e => e.write) = writes.drop 8) ∧
        ∀ n, t.journal.isLive n = (s.journal.isLive n &&
          match s.journal.recordAt n with | some ⟨_, .step x _, _⟩ => decide (x ≠ r.sequence) | _ => true)) ∧
    (r.state = .armed → q = r.sequence →
      let u : State := { waiting with
        renewal := { r with disarm := true, activation := false }
        arbiter := { s.arbiter with hold := if s.arbiter.hold = .requested then .none else s.arbiter.hold } }
      let t := u.handed (.append (.disarm r.sequence)) .disarm
      exec (.cancel p) s = .next t.settle ∧
      (s.engine.isSome = true ∨ (s.arbiter.hold ≠ .granted ∧ s.arbiter.resumed = [] ∧ s.arbiter.checking = none ∧
        s.arbiter.waitM = false ∧ s.arbiter.waitL = false) → exec (.cancel p) s = .next t)) ∧
    (r.state = .checking → r.checking = some .arm → q = r.sequence → exec (.cancel p) s = .next waiting)

/-! ## The arbiter -/

/-- The order of grants (R64, R65, R66, R67): nothing is granted while the engine is busy or the hold is granted; then the oldest resumed
operation; then a requested hold with nothing in the engine's charge; then a checking request passed over twice; then a port, of two the
one the turn record does not name; then the checking request. A resumed operation that owned a FLOOR write is completed as an acceptance by
the position and generation it was compared against, and any other begins anew from its first check, as a port's request does (R56). -/
def Obligations.ArbiterGrants : Prop :=
  ∀ s : State, let a := s.arbiter
    (s.engine.isSome = true ∨ a.hold = .granted → s.grant = none) ∧
    (s.engine = none → a.hold ≠ .granted →
      (∀ r rest, a.resumed = r :: rest → ∃ t, s.grant = some t ∧ t.arbiter.resumed = rest ∧ t.arbiter.turn = a.turn ∧
        t.arbiter.passed = a.passed ∧
        let u := ({ s with arbiter := { a with resumed := rest } } : State)
        (∀ position g, r.accepted = some (position, g) →
          t = u.complete r.port .ok ((match position with | .current => 0x00 | .prior => 0x01) :: beBytes 2 g)) ∧
        (r.accepted = none → t = u.enter r.port)) ∧
      (a.resumed = [] →
        (a.hold = .requested → s.inCharge .M = false → s.inCharge .L = false →
          ∃ t, s.grant = some t ∧ t.arbiter = { a with hold := .granted } ∧ t.renewal.state = .committing) ∧
        (a.hold = .requested → s.inCharge .M = true ∨ s.inCharge .L = true → a.checking = none → s.grant = none) ∧
        (∀ x, a.hold = .none → a.checking = some x → a.passed = 2 ∨ (a.waitM = false ∧ a.waitL = false) →
          ∃ t, s.grant = some t ∧ t.arbiter = { a with checking := none, passed := 0 } ∧
            ∃ key, t.engine = some (.check true x key)) ∧
        (∀ p, a.hold = .none → a.checking = none ∨ a.passed < 2 →
          (a.waiting p = true ∧ a.waiting p.other = false) ∨ (a.waitM = true ∧ a.waitL = true ∧ a.turn = p.other) →
          ∃ t, s.grant = some t ∧ t.arbiter.turn = p ∧ t.arbiter.waiting p = false ∧
            t.arbiter.waiting p.other = a.waiting p.other ∧
            t.arbiter.passed = (if a.checking.isSome then a.passed + 1 else a.passed) ∧
            ∃ a' : Arbiter, t = State.enter { s with arbiter := a' } p) ∧
        (a.hold = .none → a.checking = none → a.waitM = false → a.waitL = false → s.grant = none)))

/-! ## MAKE_TAG, CHECK_TAG, PIN, UNPIN -/

/-- The nine checks of a MAKE_TAG granted as it is taken, in the order of R49; a refusal changes nothing but the port's reply and the turn
record (R59, R65). -/
def Obligations.MakeTagRefusals : Prop :=
  ∀ (p : Port) (s : State) (slot : Nat) (expected : Option Nat), s.Holds p 0x10 → s.EngineIdle → s.supply.run ≠ .flush →
    makeTagFrame (s.payload p) = .ok (slot, expected) →
    let refused (e : Status) : Prop := exec (.makeTag p) s = .next ((s.answered p e []).turnTo p)
    (s.supply.lifeCycle = .retired → refused .retired) ∧
    (s.supply.lifeCycle ≠ .retired → s.supply.run = .fault → refused .fault) ∧
    (s.supply.lifeCycle ≠ .retired → s.supply.run ≠ .fault → 24 ≤ slot → refused .noSlot) ∧
    ∀ i : Fin 24, s.supply.lifeCycle ≠ .retired → s.supply.run ≠ .fault → slot = i.val →
      ((s.slot i).role ≠ .issue → refused .wrongRole) ∧
      ((s.slot i).role = .issue → (s.slot i).userMap.has p = false → refused .notUser) ∧
      ((s.slot i).role = .issue → (s.slot i).userMap.has p = true → (s.slot i).current = none → refused .noKey) ∧
      ∀ k, (s.slot i).role = .issue → (s.slot i).userMap.has p = true → (s.slot i).current = some k →
        ((∃ g ∈ expected, g ≠ k.generation) → refused .genMoved) ∧
        ((∀ g ∈ expected, g = k.generation) → k.state = .expired → refused .expired) ∧
        ((∀ g ∈ expected, g = k.generation) → k.state = .spent → refused .spent)

/-- A MAKE_TAG that passes its checks (R26, R27, R30, R31, R50, R54): with v = n + 1 within the ceiling n takes v, COUNTER_LOW and then SPENT
are raised where due, nothing is written and the tag is being computed; above it a CEILING record of min(C + S, Lc) is handed over
and the request leaves as the owner of the slot's write wait; with a write wait standing it joins the waiters. -/
def Obligations.MakeTagIssuesOrReserves : Prop :=
  ∀ (p : Port) (s : State) (i : Fin 24) (expected : Option Nat) (k : Current) (y : Policy) (n c l : Nat),
    s.Holds p 0x10 → s.EngineIdle → s.supply.run = .run → s.supply.lifeCycle ≠ .retired →
    makeTagFrame (s.payload p) = .ok (i.val, expected) → (s.slot i).role = .issue → (s.slot i).userMap.has p = true →
    (s.slot i).current = some k → (s.slot i).policy = some y → k.state = .live → k.counters = .issue n c l →
    (∀ g ∈ expected, g = k.generation) →
    let taken := (s.setPort p ((s.port p).inFlight (.makeTag i.val expected))).turnTo p
    let low := !k.warned && decide (0 < y.warnStrides) && decide (l - (n + 1) ≤ y.warnStrides * y.stride)
    let last := decide (n + 1 = l)
    let k' := { k with counters := .issue (n + 1) c l, warned := k.warned || low, state := if last then .spent else .live }
    let raised (has : Bool) (q : List Demand) : List Demand :=
      let q := if low && has then arrive q ⟨.counterLow, some i, some k.generation, none, s.time.t⟩ else q
      if last && has then arrive q ⟨.spent, some i, some k.generation, none, s.time.t⟩ else q
    ((s.slot i).wait = none → n + 1 ≤ c →
      exec (.makeTag p) s = .next { taken with
        slots := s.slots.set i.val { s.slot i with current := some k' } i.isLt
        queueM := raised (s.slot i).notifyMap.m s.queueM
        queueL := raised (s.slot i).notifyMap.l s.queueL
        engine := some (.issue p i k.generation (n + 1) last k.bank) }) ∧
    ((s.slot i).wait = none → c < n + 1 →
      exec (.makeTag p) s = .next ((taken.setSlot i { s.slot i with
        wait := some ⟨.ceiling k.generation (min (c + y.stride) l), p, []⟩ }).handed
          (.append (.ceiling i k.generation (min (c + y.stride) l) none)) (.engine i))) ∧
    (∀ w, (s.slot i).wait = some w →
      exec (.makeTag p) s = .next (taken.setSlot i { s.slot i with wait := some { w with waiters := w.waiters ++ [p] } }))

/-- ISSUE (R48, R50): the tag over slot, generation, counter and message length, and the message, under the key of the cell's bank; the
request is completed OK with generation, counter, tag and LAST, and the engine is free for the next grant. The byte order within the header
block is the model's reading (log entry 44). -/
def Obligations.IssueCompletesTheRequest : Prop :=
  ∀ (s : State) (p : Port) (i : Fin 24) (g v : Nat) (last : Bool) (bank : Fin 3),
    s.engine = some (.issue p i g v last bank) →
    let msg := makeTagMessage (s.port p).buffer.payload
    let header := headerBlock i.val g v msg.length
    let padded := msg ++ List.replicate ((16 - msg.length % 16) % 16) 0
    let tag := Config.tagFunction (s.journal.keyAt i bank) header padded
    exec .issue s = .next (State.settle (({ s with engine := none } : State).complete p .ok
      (beBytes 2 g ++ beBytes 4 v ++ beBytes 8 tag.toNat ++ [if last then 0x01 else 0x00])))

/-- A CHECK_TAG granted as it is taken (R37, R51, R52, R54), by the first check that fails; a write wait on the slot is joined; a counter at or
below the floor is REPLAYED; above it the tag is computed under the matched cell. -/
def Obligations.CheckTagTable : Prop :=
  ∀ (p : Port) (s : State) (slot g c : Nat) (tag : Tag), s.Holds p 0x11 → s.EngineIdle → s.supply.run ≠ .flush →
    checkTagFrame (s.payload p) = .ok (slot, g, c, tag) →
    let refused (e : Status) : Prop := exec (.checkTag p) s = .next ((s.answered p e []).turnTo p)
    let taken := (s.setPort p ((s.port p).inFlight (.checkTag slot g c tag))).turnTo p
    (s.supply.lifeCycle = .retired → refused .retired) ∧
    (s.supply.lifeCycle ≠ .retired → s.supply.run = .fault → refused .fault) ∧
    (s.supply.lifeCycle ≠ .retired → s.supply.run ≠ .fault → 24 ≤ slot → refused .noSlot) ∧
    ∀ i : Fin 24, s.supply.lifeCycle ≠ .retired → s.supply.run ≠ .fault → slot = i.val →
      ((s.slot i).role ≠ .accept → refused .wrongRole) ∧
      ((s.slot i).role = .accept → (s.slot i).userMap.has p = false → refused .notUser) ∧
      ((s.slot i).role = .accept → (s.slot i).userMap.has p = true → (s.slot i).current = none → refused .noKey) ∧
      ∀ k y, (s.slot i).role = .accept → (s.slot i).userMap.has p = true → (s.slot i).current = some k →
        (s.slot i).policy = some y →
        (∀ w, (s.slot i).wait = some w →
          exec (.checkTag p) s = .next (taken.setSlot i { s.slot i with wait := some { w with waiters := w.waiters ++ [p] } })) ∧
        ((s.slot i).wait = none → k.generation = g → k.state = .expired → refused .expired) ∧
        ((s.slot i).wait = none → k.generation = g → k.state = .spent → refused .spent) ∧
        (∀ f q, (s.slot i).wait = none → k.generation = g → k.state = .live → k.counters = .floor f q →
          (c ≤ f → refused .replayed) ∧
          (f < c → exec (.checkTag p) s =
            .next { taken with engine := some (.compare p i g c tag .current k.bank (q + y.stride)) })) ∧
        (∀ o, (s.slot i).wait = none → k.generation ≠ g → (s.slot i).prior = some o → o.generation = g →
          (c ≤ o.f → refused .replayed) ∧
          (o.f < c → exec (.checkTag p) s =
            .next { taken with engine := some (.compare p i g c tag .prior o.bank (o.persisted + y.stride)) })) ∧
        ((s.slot i).wait = none → k.generation ≠ g → (∀ o ∈ (s.slot i).prior, o.generation ≠ g) → refused .unknownGen)

/-- TAG_COMPARISON (R37, R38, R53, R55, R57): a tag that differs is BAD_TAG and changes no floor; one that agrees below P + S is accepted at
once and the matched cell's floor takes c; at P + S or above, a FLOOR record with c is handed over and the request leaves as the owner of
the slot's write wait, or is refused FAULT in FAULT. `edge` is P + S of the matched cell. Accepted under CURRENT, the cell keeps all but
its floor, becomes SPENT at 4,294,967,295, and raises COUNTER_LOW, once, and then SPENT by the notify map; under PRIOR nothing is raised.
That a comparison which FAULT finds in the engine is accepted there too, raising F and its demands, is the model's reading (log entries
37, 38), and so is the byte order within the header block (log entry 44). -/
def Obligations.TagComparisonTable : Prop :=
  ∀ (s : State) (p : Port) (i : Fin 24) (g c : Nat) (tag : Tag) (pos : Position) (bank : Fin 3) (edge : Nat),
    s.engine = some (.compare p i g c tag pos bank edge) →
    let free := ({ s with engine := none } : State)
    let msg := (s.port p).buffer.payload.drop 15
    let computed := tagOver (s.journal.keyAt i bank) i.val g c msg
    let position : Byte := match pos with | .current => 0x00 | .prior => 0x01
    (computed ≠ tag → exec .tagComparison s = .next (free.complete p .badTag []).settle) ∧
    (computed = tag → c < edge → ∃ u : State, exec .tagComparison s = .next (u.complete p .ok (position :: beBytes 2 g)).settle ∧
      u.engine = none ∧ u.journal = s.journal ∧ u.arbiter = s.arbiter ∧ u.portM = s.portM ∧ u.portL = s.portL ∧
      u.renewal = s.renewal ∧ u.commit = s.commit ∧ u.time = s.time ∧ u.supply = s.supply ∧
      (∀ j, j ≠ i → u.slot j = s.slot j) ∧
      (∀ o, pos = .prior → (s.slot i).prior = some o → o.generation = g →
        u.slot i = { s.slot i with prior := some { o with f := c } } ∧ u.queueM = s.queueM ∧ u.queueL = s.queueL) ∧
      (∀ k f q, pos = .current → (s.slot i).current = some k → k.generation = g → k.counters = .floor f q →
        let low := !k.warned && (match (s.slot i).policy with
          | some y => decide (0 < y.warnStrides) && decide (LIMIT - c ≤ y.warnStrides * y.stride) | none => false)
        let full := decide (k.state = .live) && decide (c = LIMIT)
        u.slot i = { s.slot i with current := some { k with
          counters := .floor c q, warned := k.warned || low, state := if full then .spent else k.state } } ∧
        ∀ x, u.queue x = if (s.slot i).notifyMap.has x
          then (conditionDemands i g s.time.t low full false false).foldl arrive (s.queue x) else s.queue x)) ∧
    (computed = tag → edge ≤ c → s.supply.run = .run →
      exec .tagComparison s = .next (((free.setSlot i { s.slot i with wait := some ⟨.floor g c pos, p, []⟩ }).handed
        (.append (.floor i g c none)) (.engine i)).settle)) ∧
    (computed = tag → edge ≤ c → s.supply.run = .fault →
      exec .tagComparison s = .next (free.complete p .fault []).settle)

/-- PIN granted as it is taken (R15, R16), by the first check that fails; on a slot with no pin it is set with end T + pin ticks, and the
holder's own pin is confirmed unchanged. -/
def Obligations.PinTable : Prop :=
  ∀ (p : Port) (s : State) (slot : Nat), s.Holds p 0x12 → s.EngineIdle → s.supply.run ≠ .flush →
    pinFrame (s.payload p) = .ok slot →
    let refused (e : Status) : Prop := exec (.pin p) s = .next ((s.answered p e []).turnTo p)
    (s.supply.lifeCycle = .retired → refused .retired) ∧
    (s.supply.lifeCycle ≠ .retired → s.supply.run = .fault → refused .fault) ∧
    (s.supply.lifeCycle ≠ .retired → s.supply.run ≠ .fault → 24 ≤ slot → refused .noSlot) ∧
    ∀ i : Fin 24, s.supply.lifeCycle ≠ .retired → s.supply.run ≠ .fault → slot = i.val →
      let usable := (s.slot i).role = .issue ∨ (s.slot i).role = .accept
      (¬ usable → refused .wrongRole) ∧
      (usable → (s.slot i).userMap.has p = false → refused .notUser) ∧
      (usable → (s.slot i).userMap.has p = true → (∀ k ∈ (s.slot i).current, k.state ≠ .live) → refused .noKey) ∧
      ∀ k y, usable → (s.slot i).userMap.has p = true → (s.slot i).current = some k → k.state = .live →
        (s.slot i).policy = some y →
        (y.pinTicks = 0 → refused .notPinnable) ∧
        (y.pinTicks ≠ 0 → s.activationDue i = true → refused .activationDue) ∧
        (∀ h, y.pinTicks ≠ 0 → s.activationDue i = false → (s.slot i).pin = some h → h.holder ≠ p → refused .pinnedElsewhere) ∧
        (∀ h, y.pinTicks ≠ 0 → s.activationDue i = false → (s.slot i).pin = some h → h.holder = p →
          exec (.pin p) s = .next ((s.answered p .ok (beBytes 2 h.generation ++ beBytes 5 h.pinEnd)).turnTo p)) ∧
        (y.pinTicks ≠ 0 → s.activationDue i = false → (s.slot i).pin = none →
          exec (.pin p) s =
            .next (((s.setSlot i { s.slot i with pin := some ⟨p, k.generation, s.time.t + y.pinTicks⟩ }).answered p .ok
              (beBytes 2 k.generation ++ beBytes 5 (s.time.t + y.pinTicks))).turnTo p))

/-- UNPIN granted as it is taken (R18): the refusals in order; the holder's pin is removed, and the commit start test is made at that
event (R105). -/
def Obligations.UnpinTable : Prop :=
  ∀ (p : Port) (s : State) (slot : Nat), s.Holds p 0x13 → s.EngineIdle → s.supply.run ≠ .flush →
    pinFrame (s.payload p) = .ok slot →
    let refused (e : Status) : Prop := exec (.unpin p) s = .next ((s.answered p e []).turnTo p)
    (s.supply.lifeCycle = .retired → refused .retired) ∧
    (s.supply.lifeCycle ≠ .retired → s.supply.run = .fault → refused .fault) ∧
    (s.supply.lifeCycle ≠ .retired → s.supply.run ≠ .fault → 24 ≤ slot → refused .noSlot) ∧
    ∀ i : Fin 24, s.supply.lifeCycle ≠ .retired → s.supply.run ≠ .fault → slot = i.val →
      ((s.slot i).userMap.has p = false → refused .notUser) ∧
      ((s.slot i).userMap.has p = true → (∀ h ∈ (s.slot i).pin, h.holder ≠ p) → refused .notPinned) ∧
      (∀ h, (s.slot i).userMap.has p = true → (s.slot i).pin = some h → h.holder = p →
        let u := ((s.setSlot i { s.slot i with pin := none }).answered p .ok []).turnTo p
        exec (.unpin p) s = .next u.commitStart.settle ∧
        (s.renewal.activation = false ∨ s.renewal.state ≠ .armed → exec (.unpin p) s = .next u))

/-! ## Checking -/

/-- AUTHENTICATOR_CHECK and the consuming of the sequence (R43, R60, R62, R81, R91, R95, R146, R147, R204). Under slot 0's key a tag over the batch
sequence and message that agrees has the FLOOR record that consumes the sequence handed over; one that differs, or a slot 0 that was not LIVE
at the grant, refuses the batch BAD_AUTH; the result of a batch that has ended is discarded. At the completion of that FLOOR record F0 and P
take the sequence, and a LIVE cell at LIMIT becomes SPENT with its demand, whatever became of the batch; a batch still in checking then drops
its steps' payload bytes and takes its first step in hand. The record is live where slot 0's SLOT record names its generation, the one before
it is stale, and the write position moves on. That F0 takes the sequence even where it lies below F0, that a CEILING and a FLOOR share one
key, and the byte order within the header block are the model's readings (log entries 18, 43, 44). -/
def Obligations.AuthenticatorCheckTable : Prop :=
  (∀ (s : State) (live : Bool) (q : Nat) (msg : List Byte) (tag : Tag) (key : Option (Nat × Fin 3)),
    s.engine = some (.check live (.authenticator q msg tag) key) →
    let free := ({ s with engine := none } : State)
    let agrees := ∃ g bank, key = some (g, bank) ∧ tagOver (s.journal.keyAt 0 bank) 0 g q msg = tag
    (live = false → exec .authenticatorCheck s = .next free.settle) ∧
    (∀ g bank, live = true → agrees → key = some (g, bank) → s.supply.run = .run →
      exec .authenticatorCheck s = .next ((({ free with
        renewal := { s.renewal with checking := some .floorWrite } } : State).handed
          (.append (.floor 0 g s.renewal.sequence none)) (.checkFloor true)).settle)) ∧
    (live = true → ¬ agrees → ∃ u : State, exec .authenticatorCheck s = .next u.settle ∧ u.renewal.state = .idle ∧
      u.renewal.result = ⟨s.renewal.sequence, .refused .badAuth, s.renewal.outcomes⟩ ∧ u.f0 = s.f0 ∧
      (∀ i, u.slot i = { s.slot i with next := none }) ∧ u.engine = none ∧ u.commit = s.commit ∧ u.time = s.time ∧
      u.supply = s.supply ∧ u.portM = s.portM ∧ u.portL = s.portL ∧
      u.journal.ring = s.journal.ring ∧ u.journal.banks = s.journal.banks ∧
      u.queueM = arrive s.queueM ⟨.batchRefused, none, none, some s.renewal.sequence, s.time.t⟩ ∧
      u.queueL = arrive s.queueL ⟨.batchRefused, none, none, some s.renewal.sequence, s.time.t⟩)) ∧
  ∀ (s : State) (live : Bool) (g v : Nat) (k : Current) (rest : List Entry),
    s.journal.queue = ⟨.append (.floor 0 g v none), .checkFloor live⟩ :: rest → s.journal.toCopy = none → s.journal.place = [] →
    (s.slot 0).current = some k → k.generation = g →
    ∃ j : Journal, j.queue = rest ∧ j.place = [] ∧ j.failures = 0 ∧ j.banks = s.journal.banks ∧
      s.journal.AppendStands true (.floor 0 g v none) j ∧
      let full := k.state = .live ∧ v = LIMIT
      let c := { s.slot 0 with current := some { k with counters := .floor v v, state := if full then .spent else k.state } }
      let stored := ({ s with journal := j } : State)
      let u := if full then stored.slotDemand 0 c ⟨.spent, some 0, some g, none, s.time.t⟩ else stored.setSlot 0 c
      let stripped : Renewal := { s.renewal with buffer := s.renewal.buffer.map fun (x : StepRecord) => { x with bytes := [] } }
      exec .writeComplete s = .next (if live then State.stepsFrom { u with renewal := stripped } 0 else u).settle

/-- UNWRAP and the steps stage (R13, R61, R62, R82, R83, R84, R86). The result of a batch that has ended is discarded, whatever stands in the
renewal engine. Of a batch in checking a good verdict makes the slot's NEXT cell PENDING in the bank given, decides the step APPLIED and hands
the bank write over, and with a place for it checking takes the next step in hand; a bad one fails the step WRAP: a required step ends the
batch, an optional one is DROPPED. The checks of a step, by the first of R82's table that fails: kind by kind the reason, or none. Steps
are taken in buffer order: one that fails is dropped, or ends the batch where it is required; an INSTALL that passes presents its unwrap,
under the lowest of the slot's banks that neither its CURRENT nor its PRIOR uses; any other that passes is APPLIED; after the last the
images-complete stage begins. That the NEXT cell stands in a slot still EMPTY is the model's reading (log entry 41). -/
def Obligations.UnwrapTable : Prop :=
  (∀ (s : State) (blob : Blob) (slot : Fin 24) (g : Nat) (bank : Fin 3) (key : Option (Nat × Fin 3)),
    s.engine = some (.check false (.unwrap blob slot g bank) key) →
    exec .unwrap s = .next (State.settle { s with engine := none })) ∧
  (∀ (s : State) (blob : Blob) (slot : Fin 24) (g : Nat) (bank : Fin 3) (key : Option (Nat × Fin 3)) (i : Nat) (r : StepRecord),
    s.engine = some (.check true (.unwrap blob slot g bank) key) → s.renewal.checking = some (.unwrap i) →
    s.renewal.buffer[i]? = some r →
    let free := ({ s with engine := none } : State)
    let decided (o : StepOutcome) : Renewal :=
      { s.renewal with result := { s.renewal.result with steps := s.renewal.result.steps ++ [o] } }
    let verdict : Option Key := match key with
      | some (_, b) =>
        if (Config.unwrapFunction blob (s.journal.keyAt 0 b) slot.val g).2 = true
        then some (Config.unwrapFunction blob (s.journal.keyAt 0 b) slot.val g).1 else none
      | none => none
    match verdict with
    | some k => s.supply.run = .run →
      let u := (({ free with renewal := decided .applied } : State).setSlot slot { s.slot slot with
        next := some ⟨g, false, r.part.lifeAndBudget.1, r.part.lifeAndBudget.2, bank⟩ }).handed
          (.bankWrite slot bank g k) (.checkBank true slot)
      exec .unwrap s =
        .next (if s.journal.queue.length < 8 then u.stepsFrom (i + 1) else u.setStage (.bankPlace i)).settle
    | none =>
      (r.required = false →
        exec .unwrap s = .next ((({ free with renewal := decided (.dropped .wrap) } : State).stepsFrom (i + 1)).settle)) ∧
      (r.required = true → ∃ u : State, exec .unwrap s = .next u.settle ∧ u.renewal.state = .idle ∧
        u.renewal.result = ⟨s.renewal.sequence, .refused (.stepFailed r.index .wrap), s.renewal.outcomes⟩ ∧
        u.engine = none ∧ u.commit = s.commit ∧ u.time = s.time ∧ u.supply = s.supply ∧ u.portM = s.portM ∧
        u.portL = s.portL ∧ u.journal.ring = s.journal.ring ∧ u.journal.banks = s.journal.banks ∧
        ∀ j, u.slot j = { s.slot j with next := none })) ∧
  (∀ (s : State) (i : Fin 24),
    let role := (s.slot i).role
    let plain (part : StepPart) : Prop :=
      (i = 0 → s.stepFails part = some .slot0) ∧ (i ≠ 0 → role = .empty → s.stepFails part = some .role) ∧
      (i ≠ 0 → role ≠ .empty → s.stepFails part = none)
    plain (.clear i) ∧ (∀ y user notify, plain (.policy i y user notify)) ∧
    (i = 0 ∨ role = .empty ∨ role = .issue → s.stepFails (.endGrace i) = some .role) ∧
    (i ≠ 0 → role ≠ .empty → role ≠ .issue → (s.slot i).prior = none → s.stepFails (.endGrace i) = some .grace) ∧
    (i ≠ 0 → role ≠ .empty → role ≠ .issue → (s.slot i).prior ≠ none → s.stepFails (.endGrace i) = none) ∧
    (∀ g blob life budget define y,
      let fails := s.stepFails (.install i g blob life budget define y)
      let misfit := (define.isSome = true ∧ role ≠ .empty) ∨ (define = none ∧ role = .empty)
      let fixed := i = 0 ∧ y.isSome = true
      let unbudgeted := budget.isSome = true ∧ (role = .accept ∨ role = .renew ∨ ∃ d ∈ define, d.role = .accept)
      let old := (∃ k ∈ (s.slot i).current, g ≤ k.generation) ∨ ∃ k ∈ (s.slot i).prior, g ≤ k.generation
      (misfit → fails = some .define) ∧ (¬ misfit → fixed → fails = some .slot0) ∧
      (¬ misfit → ¬ fixed → unbudgeted → fails = some .role) ∧ (¬ misfit → ¬ fixed → ¬ unbudgeted → old → fails = some .gen) ∧
      (¬ misfit → ¬ fixed → ¬ unbudgeted → ¬ old → fails = none)) ∧
    (∀ target code,
      let renewed := (∃ k ∈ (s.slot 0).current, 1 < k.generation) ∨ ∃ x ∈ s.renewal.buffer.zip s.renewal.result.steps,
        x.2 = .applied ∧ ∃ g blob life budget define y, x.1.part = .install 0 g blob life budget define y
      let passes := (s.supply.lifeCycle = .factory ∧ target = .operational ∧ renewed) ∨
        ((s.supply.lifeCycle = .factory ∨ s.supply.lifeCycle = .operational) ∧ target = .retired)
      (passes → s.stepFails (.lifecycle target code) = none) ∧
      (¬ passes → s.stepFails (.lifecycle target code) = some .lifecycle)) ∧
    ((∀ k ∈ (s.slot i).current, k.bank ≠ (s.slot i).freeBank) ∧ (∀ k ∈ (s.slot i).prior, k.bank ≠ (s.slot i).freeBank) ∧
      ∀ b < (s.slot i).freeBank, (∃ k ∈ (s.slot i).current, k.bank = b) ∨ ∃ k ∈ (s.slot i).prior, k.bank = b)) ∧
  ∀ (s : State) (n : Nat),
    (s.renewal.buffer.length ≤ n → s.stepsFrom n = (s.setStage .images).tryImages) ∧
    ∀ r, s.renewal.buffer[n]? = some r →
      (∀ e, s.stepFails r.part = some e → r.required = true → s.stepsFrom n = s.refuseBatch (.stepFailed r.index e)) ∧
      (∀ e, s.stepFails r.part = some e → r.required = false → s.stepsFrom n = (s.addOutcome (.dropped e)).stepsFrom (n + 1)) ∧
      (s.stepFails r.part = none →
        match r.part with
        | .install i g blob .. => s.stepsFrom n = { s with
            renewal := { s.renewal with checking := some (.unwrap n) }
            arbiter := { s.arbiter with checking := some (.unwrap blob i g (s.slot i).freeBank) } }
        | _ => s.stepsFrom n = (s.addOutcome .applied).stepsFrom (n + 1))

/-! ## The journal -/

/-- The completion of the record of a slot write wait (R27, R38, R55, R144, R146, R147): the record stands at the write position with the
present lap count, live where the slot's SLOT record names its generation, with the older record of its key stale and the write position
moved on, past 511 to 0 with the next lap; C takes C', or P and F take c, of CURRENT or of PRIOR; the wait ends; its owner and then its
waiters join the end of the resumed list. A FLOOR of CURRENT raises COUNTER_LOW, once, and then SPENT by the notify map, as an acceptance
does; a CEILING and a FLOOR of PRIOR raise nothing. Where the PRIOR has been removed while its record was in flight no cell changes and
the record is not live. With the engine busy nothing is granted at this event, and with the place list empty no other write follows. That
the record of a removed PRIOR is not live, and that a CEILING and a FLOOR of one slot and generation share one key, are the model's
readings (log entries 19, 43). -/
def Obligations.WaitRecordCompletes : Prop :=
  ∀ (s : State) (i : Fin 24) (rest : List Entry) (owner : Port) (waiters : List Port) (v : Nat) (b : Body),
    s.engine.isSome = true → s.journal.toCopy = none → s.journal.place = [] →
    s.journal.queue = ⟨.append b, .engine i⟩ :: rest →
    let stands (keep : Bool) (t : State) (c : Slot) (accepted : Option (Position × Nat)) : Prop :=
      exec .writeComplete s = .next t ∧ s.journal.AppendStands keep b t.journal ∧
      t.journal.banks = s.journal.banks ∧ t.journal.queue = rest ∧ t.engine = s.engine ∧ t.renewal = s.renewal ∧
      t.commit = s.commit ∧ t.time = s.time ∧ t.supply = s.supply ∧ t.portM = s.portM ∧ t.portL = s.portL ∧
      (∀ j, j ≠ i → t.slot j = s.slot j) ∧ t.slot i = { c with wait := none } ∧
      t.arbiter = { s.arbiter with
        resumed := s.arbiter.resumed ++ (⟨owner, accepted⟩ :: waiters.map fun w => ⟨w, none⟩) }
    (∀ k n c l, (s.slot i).current = some k → b = .ceiling i k.generation v none → k.counters = .issue n c l →
      (s.slot i).wait = some ⟨.ceiling k.generation v, owner, waiters⟩ →
      ∃ t : State, stands true t { s.slot i with current := some { k with counters := .issue n v l } } none ∧
        t.queueM = s.queueM ∧ t.queueL = s.queueL) ∧
    (∀ k f q, (s.slot i).current = some k → b = .floor i k.generation v none → k.counters = .floor f q →
      (s.slot i).wait = some ⟨.floor k.generation v .current, owner, waiters⟩ →
      let low := !k.warned && (match (s.slot i).policy with
        | some y => decide (0 < y.warnStrides) && decide (LIMIT - v ≤ y.warnStrides * y.stride) | none => false)
      let full := decide (k.state = .live) && decide (v = LIMIT)
      let k' := { k with counters := .floor v v, warned := k.warned || low, state := if full then .spent else k.state }
      ∃ t : State, stands true t { s.slot i with current := some k' } (some (.current, k.generation)) ∧
        ∀ x, t.queue x = if (s.slot i).notifyMap.has x
          then (conditionDemands i k.generation s.time.t low full false false).foldl arrive (s.queue x) else s.queue x) ∧
    (∀ g, b = .floor i g v none → (s.slot i).wait = some ⟨.floor g v .prior, owner, waiters⟩ →
      (∀ o, (s.slot i).prior = some o → o.generation = g →
        ∃ t : State, stands true t { s.slot i with prior := some { o with f := v, persisted := v } } (some (.prior, g)) ∧
          t.queueM = s.queueM ∧ t.queueL = s.queueL) ∧
      ((∀ o ∈ (s.slot i).prior, o.generation ≠ g) →
        ∃ t : State, stands false t (s.slot i) (some (.prior, g)) ∧ t.queueM = s.queueM ∧ t.queueL = s.queueL))

/-- The end of checking, record by record (R87, R88, R89, R95, R96, R104, R143, R146, R147). A bank write of the batch that completes makes
its slot's NEXT cell READY. With every NEXT cell READY in the images-complete stage the records stage begins: the applied steps become the
STEP records, handed over in index order, each waiting for a place before the next; with none applied, or at the completion of the last of
them, the ARM record is handed over with the named slots, the step outcomes and the activation tick T + D, or none where D = 0. Armed: the
state is ARMED with the applied steps, the flag set only where the activation tick is reached, and BATCH_ARMED enters both queues; with a
CANCEL waiting it is then disarming at once, its flag clear, with the DISARM record handed over and the CANCEL in flight. Disarmed: every
NEXT cell is gone, the result is CANCELLED with the list as it stood, and the CANCEL that waited is completed OK. Each record leaves the
journal as R146 and R147 say: STEP and ARM records live, a DISARM making the ARM and STEP records of its sequence stale. -/
def Obligations.ArmAndDisarmComplete : Prop :=
  ∀ (s : State) (b : Body) (rest : List Entry), s.engine.isSome = true → s.journal.toCopy = none → s.journal.place = [] →
    let tick : Option Nat := match s.renewal.header with
      | some h => (match h.delay with | some d => if d = 0 then none else some (s.time.t + d) | none => none)
      | none => none
    let armRecord (applied : List AppliedStep) : Entry :=
      ⟨.append (.arm s.renewal.sequence (applied.filterMap fun a => a.part.slot) tick s.renewal.result.steps), .checkArm⟩
    (∀ i k g key n, s.journal.queue = ⟨.bankWrite i k g key, .checkBank true i⟩ :: rest → (s.slot i).next = some n →
      s.supply.run = .run → rest.length < 8 →
      ∃ t : State, exec .writeComplete s = .next t ∧ t.slot i = { s.slot i with next := some { n with ready := true } } ∧
        (∀ j, j ≠ i → t.slot j = s.slot j) ∧ t.journal.ring = s.journal.ring ∧ t.journal.validImage i k g = true ∧
        t.journal.keyAt i k = key ∧ t.journal.writePosition = s.journal.writePosition ∧ t.journal.lap = s.journal.lap ∧
        t.journal.live = s.journal.live ∧
        (let imaged := s.renewal.checking = some .images ∧ ∀ j, j ≠ i → ∀ m ∈ (s.slot j).next, m.ready = true
         let steps : List AppliedStep := (s.renewal.buffer.zip s.renewal.result.steps).filterMap fun x =>
           match x.2 with
           | .applied => some (x.1.applied fun j => match (s.slot j).next with | some m => m.bank | none => 0)
           | .dropped _ => none
         let entries := entriesOf (.checkStep true) (steps.map (.step s.renewal.sequence))
         let room := 8 - rest.length
         (¬ imaged → t.renewal = s.renewal ∧ t.journal.queue = rest ∧ t.journal.place = []) ∧
         (imaged → steps = [] → t.journal.queue = rest ++ [armRecord []] ∧ t.journal.place = [] ∧
           t.renewal = { s.renewal with applied := [], activationTick := tick, checking := some .arm }) ∧
         (imaged → steps ≠ [] → t.journal.queue = rest ++ entries.take room ∧ t.journal.place = (entries.drop room).take 1 ∧
           t.renewal = { s.renewal with applied := steps, checking := some (.records (steps.drop (room + 1))) }))) ∧
    (∀ last, s.journal.queue = ⟨.append b, .checkStep true last⟩ :: rest → s.supply.run = .run ∨ s.supply.run = .flush →
      rest.length < 8 → ∃ t : State, exec .writeComplete s = .next t ∧ t.slots = s.slots ∧ s.journal.AppendStands true b t.journal ∧
        (last = false → t.renewal = s.renewal ∧ t.journal.queue = rest) ∧
        (last = true → t.journal.queue = rest ++ [armRecord s.renewal.applied] ∧
          t.renewal = { s.renewal with activationTick := tick, checking := some .arm })) ∧
    (s.journal.queue = ⟨.append b, .checkArm⟩ :: rest → s.canceller = none →
      ∃ t : State, exec .writeComplete s = .next t ∧ t.renewal.state = .armed ∧ t.renewal.applied = s.renewal.applied ∧
        t.renewal.buffer = [] ∧ t.renewal.header = s.renewal.header ∧ t.renewal.disarm = false ∧
        t.renewal.activation = (match s.renewal.activationTick with
          | some a => decide (a ≤ s.time.t) && decide (s.supply.run ≠ .starting)
          | none => false) ∧
        t.renewal.result = { s.renewal.result with outcome := .armed } ∧
        t.queueM = arrive s.queueM ⟨.batchArmed, none, none, some s.renewal.sequence, s.time.t⟩ ∧
        t.queueL = arrive s.queueL ⟨.batchArmed, none, none, some s.renewal.sequence, s.time.t⟩ ∧
        (∀ i, t.slot i = s.slot i) ∧ t.journal.queue = rest ∧ t.journal.banks = s.journal.banks ∧ t.engine = s.engine ∧
        t.commit = s.commit ∧ t.time = s.time ∧ t.supply = s.supply ∧ t.portM = s.portM ∧ t.portL = s.portL ∧
        s.journal.AppendStands true b t.journal) ∧
    (∀ p, s.journal.queue = ⟨.append b, .checkArm⟩ :: rest → s.canceller = some p → s.supply.run = .run ∨ s.supply.run = .flush →
      rest.length < 8 → ∃ t : State, exec .writeComplete s = .next t ∧
        t.renewal = { s.renewal with
          state := .armed, buffer := [], authenticator := none, checking := none, activation := false, disarm := true
          result := { s.renewal.result with outcome := .armed } } ∧
        t.queueM = arrive s.queueM ⟨.batchArmed, none, none, some s.renewal.sequence, s.time.t⟩ ∧
        t.queueL = arrive s.queueL ⟨.batchArmed, none, none, some s.renewal.sequence, s.time.t⟩ ∧
        t.journal.queue = rest ++ [⟨.append (.disarm s.renewal.sequence), .disarm⟩] ∧ t.journal.place = [] ∧
        t.arbiter = { s.arbiter with hold := if s.arbiter.hold = .requested then .none else s.arbiter.hold } ∧
        (∀ i, t.slot i = s.slot i) ∧ t.journal.banks = s.journal.banks ∧ t.engine = s.engine ∧ t.commit = s.commit ∧
        t.time = s.time ∧ t.supply = s.supply ∧ t.portM = s.portM ∧ t.portL = s.portL ∧ s.journal.AppendStands true b t.journal) ∧
    (∀ p, s.journal.queue = ⟨.append b, .disarm⟩ :: rest → s.canceller = some p →
      ∃ t : State, exec .writeComplete s = .next t ∧ t.renewal.state = .idle ∧ t.renewal.header = none ∧ t.renewal.applied = [] ∧
        t.renewal.disarm = false ∧ t.renewal.activation = false ∧
        t.renewal.result = ⟨s.renewal.sequence, .cancelled, s.renewal.result.steps⟩ ∧
        (∀ i, t.slot i = { s.slot i with next := none }) ∧
        (t.port p).request = none ∧ (t.port p).reply = .reply .ok [] ∧ t.queueM = s.queueM ∧ t.queueL = s.queueL ∧
        t.journal.queue = rest ∧ t.journal.banks = s.journal.banks ∧ t.engine = s.engine ∧ t.commit = s.commit ∧
        t.time = s.time ∧ t.supply = s.supply ∧ t.port p.other = s.port p.other ∧ s.journal.AppendStands true b t.journal)

/-- The completion of COMMIT_END, and the erase it may begin (R115 to R117, R147, R155, R175 to R177). Every named slot takes its new contents
at one event, keeping its pin; every other slot stays; a LIFECYCLE step gives the life-cycle state and to OPERATIONAL its tick period
code; the engine is IDLE with result DONE, the sequence is the last committed, the hold is released; in the live map the commit's records
take the place of the base records of their keys, and its COMMIT_BEGIN, ARM and STEP records are stale. No port waits, so that nothing is
granted.
`visible`: a named CURRENT is SPENT, EXPIRED or LIVE by its counter and lifetime at T, a cell that stays keeping its state and marks; the
queues take BATCH_DONE, then per named slot COUNTER_LOW, SPENT, LIFE_LOW and EXPIRED, SPENT only of a cell made at its limit; a
roll-forward raises the demands of start-up instead.
`retiring`: to RETIRED every pin goes, BATCH_DONE is the one demand, and the erase goes on from its first item: in RUN its write is handed
over, in FLUSH it stays in hand. `rolled`: the end of a roll-forward makes the contents visible in the same way with result NONE, and
outside RETIRED start-up ends, in FAULT only with the mark set. `erasing`: an item of the erase that completes is passed, a SLOT record
removes its slot's cells, and the erase goes on from the next item, in RUN, in FLUSH, and in stage 5 of start-up, which ends after the
last item or where no write may be handed over. Every bank that is not erased is an item, and so is the SLOT record of a slot whose newest
names a cell or a role; slot 0 keeps RENEW and its fixed policy. That items with nothing to write are passed over in FLUSH too, and that a
CEILING and a FLOOR share one key, are the model's readings (log entries 21, 43). -/
def Obligations.CommitEndMakesTheBatchVisible : Prop :=
  (∀ (s : State) (q : Nat) (c : Commit) (rest : List Entry),
    s.journal.queue = ⟨.append (.commitEnd q), .commitEnd⟩ :: rest → s.journal.toCopy = none → s.journal.place = [] →
    s.commit = some c → (c.slots.map fun x => x.slot).Nodup → s.EngineIdle ∨
      (s.engine = none ∧ s.arbiter = { s.arbiter with
        resumed := [], hold := .granted, waitM := false, waitL := false, checking := none }) →
    ∃ t : State, exec .writeComplete s = .next t ∧ t.renewal.state = .idle ∧ t.renewal.header = none ∧ t.renewal.applied = [] ∧
      t.renewal.activation = false ∧ t.renewal.lastCommitted = s.renewal.sequence ∧ t.commit = none ∧ t.engine = none ∧
      t.journal.banks = s.journal.banks ∧ s.journal.AppendStands true (.commitEnd q) t.journal ∧
      t.supply.lifeCycle = (match c.lifecycle with | some l => l.1 | none => s.supply.lifeCycle) ∧
      t.time.code = (match c.lifecycle with | some (_, some code) => code | _ => s.time.code) ∧ t.time.t = s.time.t ∧
      t.time.tb = s.time.tb ∧
      (t.supply.lifeCycle ≠ .retired →
        (∀ i, (∀ x ∈ c.slots, x.slot ≠ i) → c.rolling = false → t.slot i = s.slot i) ∧
        (∀ i, (t.slot i).pin = (s.slot i).pin) ∧
        ∀ x ∈ c.slots, (t.slot x.slot).role = x.role ∧ (t.slot x.slot).userMap = x.userMap ∧
          (t.slot x.slot).notifyMap = x.notifyMap ∧ (t.slot x.slot).policy = x.policy ∧ (t.slot x.slot).next = none ∧
          (t.slot x.slot).current.map (fun k => (k.generation, k.activation, k.lifetime, k.counters, k.bank)) =
            x.current.map (fun k => (k.generation, k.activation, k.lifetime, k.counters, k.bank)) ∧
          (t.slot x.slot).prior = x.prior.filter fun k => decide (s.time.t < k.graceEnd)) ∧
      (c.rolling = false → t.renewal.result = ⟨s.renewal.sequence, .done, s.renewal.result.steps⟩ ∧ t.arbiter.hold = .none ∧
        t.time = { s.time with code := t.time.code } ∧ t.portM = s.portM ∧ t.portL = s.portL) ∧
      -- visible
      (let cell (x : NewSlot) : Option Current := if x.installed then x.current else
         x.current.map fun k => match (s.slot x.slot).current with
           | some old => { k with state := old.state, warned := old.warned, lifeWarned := old.lifeWarned }
           | none => k
       let now (i : Fin 24) : Option Current := match c.slots.find? fun x => decide (x.slot = i) with
         | some x => cell x
         | none => (s.slot i).current
       (t.supply.lifeCycle ≠ .retired → ∀ x ∈ c.slots, (t.slot x.slot).current = (cell x).map fun k => k.evaluated x.policy s.time.t) ∧
       (t.supply.lifeCycle ≠ .retired → c.rolling = false → ∀ p, t.queue p = List.foldl arrive (s.queue p)
         (⟨.batchDone, none, none, some s.renewal.sequence, s.time.t⟩ :: c.slots.flatMap fun x => match cell x with
           | some k => if x.notifyMap.has p then k.demands x.slot x.policy s.time.t (x.installed && decide (k.state = .spent)) else []
           | none => [])) ∧
       (t.supply.lifeCycle ≠ .retired → c.rolling = true → s.supply.run = .starting →
         (∀ i, (t.slot i).current = (now i).map fun k => k.evaluated (t.slot i).policy s.time.t) ∧
         ∀ p, t.queue p = List.foldl arrive (s.queue p)
           (⟨.restarted, none, none, none, s.time.t⟩ :: (List.finRange 24).flatMap fun i => match now i with
             | some k => if (t.slot i).notifyMap.has p
                 then k.demands i (t.slot i).policy s.time.t (decide (k.state = .spent)) else []
             | none => []))) ∧
      -- retiring
      (∀ code, c.rolling = false → c.lifecycle = some (.retired, code) → s.supply.run = .run ∨ s.supply.run = .flush →
        rest.length < 8 →
        (∀ i, (t.slot i).pin = none) ∧
        t.queueM = arrive s.queueM ⟨.batchDone, none, none, some s.renewal.sequence, s.time.t⟩ ∧
        t.queueL = arrive s.queueL ⟨.batchDone, none, none, some s.renewal.sequence, s.time.t⟩ ∧ t.EraseStandsFrom 0 ∧
        t.journal.queue = rest ++ (if s.supply.run = .run then t.eraseEntries else [])) ∧
      -- rolled
      (c.rolling = true → s.supply.run = .starting → t.supply.lifeCycle ≠ .retired →
        t.renewal.result = ⟨0, .none, []⟩ ∧ (s.queueM = [] → t.queueM.head? = some ⟨.restarted, none, none, none, s.time.t⟩) ∧
        t.supply.run = (if s.supply.faultMark then .fault else if s.supply.warning then .quiescent else .run))) ∧
  -- erasing
  (∀ (s : State) (w : Write) (i : Fin 24) (item : Fin 4) (rest : List Entry),
    s.journal.queue = ⟨w, .erase⟩ :: rest → s.journal.toCopy = none ∨ item ≠ 3 → s.eraseItem i item = some w → s.journal.place = [] →
    rest.length < 8 → s.supply.erase = .at i item → s.engine.isSome = true ∨ s.EngineIdle → s.journal.Canonical →
    s.supply.run = .run ∨ s.supply.run = .flush ∨ (s.supply.run = .starting ∧ s.supply.lifeCycle = .retired ∧
      s.renewal.state = .idle ∧ ∀ e ∈ rest, e.requester ≠ .erase) →
    ∃ t : State, exec .writeComplete s = .next t ∧ t.EraseStandsFrom (itemNumber i item + 1) ∧
      (s.supply.run ≠ .starting → t.journal.queue = rest ++ (if s.supply.run = .run then t.eraseEntries else []) ∧
        t.time = s.time ∧ t.portM = s.portM ∧ t.portL = s.portL ∧ t.queueM = s.queueM ∧ t.queueL = s.queueL) ∧
      (s.supply.run = .starting →
        let hands := s.supply.warning = false ∧ s.supply.faultMark = false
        let due := t.supply.run = .run ∧ s.time.checkpoint = none ∧ s.time.tb < LIMIT ∧ s.time.tb ≤ s.time.t + 32
        (hands → t.supply.erase ≠ .complete → t.supply.run = .starting ∧ t.journal.queue = rest ++ t.eraseEntries ∧
          t.queueM = s.queueM ∧ t.queueL = s.queueL) ∧
        (¬ hands ∨ t.supply.erase = .complete →
          t.supply.run = (if s.supply.faultMark then .fault else if s.supply.warning then .quiescent else .run) ∧
          t.journal.queue = rest ++ (if due then [⟨.append (.time (min (s.time.t + 64) LIMIT)), .time⟩] else []) ∧
          ∀ p, t.queue p = arrive (s.queue p) ⟨.restarted, none, none, none, s.time.t⟩)) ∧
      (∀ j, j ≠ i ∨ item ≠ 3 → t.slot j = s.slot j) ∧
      (item = 3 → (t.slot i).current = none ∧ (t.slot i).next = none ∧ (t.slot i).prior = none ∧
        (i ≠ 0 → (t.slot i).role = .empty ∧ (t.slot i).policy = none) ∧
        (i = 0 → (t.slot i).role = (s.slot i).role ∧ (t.slot i).policy = (s.slot i).policy)) ∧
      (∀ k : Fin 3, item.val = k.val → t.journal.bank i k = none) ∧ t.renewal = s.renewal ∧
      (∀ b, w = .append b → s.journal.AppendStands true b t.journal) ∧
      (item ≠ 3 → t.journal.ring = s.journal.ring ∧ t.journal.writePosition = s.journal.writePosition ∧
        t.journal.lap = s.journal.lap ∧ t.journal.live = s.journal.live)) ∧
  ∀ (s : State) (i : Fin 24),
    (∀ k : Fin 3, s.eraseItem i ⟨k.val, by omega⟩ = if s.journal.bank i k = none then none else some (.bankErase i k)) ∧
    (let due : Prop := match s.journal.baseSlot i with
       | none => i = 0
       | some m => m.current.isSome = true ∨ m.prior.isSome = true ∨ (i ≠ 0 ∧ m.role ≠ .empty)
     (¬ due → s.eraseItem i 3 = none) ∧
     (due → i ≠ 0 → s.eraseItem i 3 = some (.append (.slot i none ⟨.empty, .none, .none, none, none, none⟩))) ∧
     (due → i = 0 → s.eraseItem i 3 = some (.append (.slot 0 none ⟨.renew, .none, .both, some ⟨1, 0, 0, 0, 0, .carryOn⟩, none, none⟩))))

/-- A commit until its COMMIT_END completes (R22, R34, R35, R45, R110 to R115). It shows nothing: the completion of its COMMIT_BEGIN and of each
of its records changes no slot, no life-cycle state, no result and no state of the renewal engine; the record is live beside the base record
of its key, and an earlier record of the same commit and key is stale (R147). At the completion of COMMIT_BEGIN it
computes its steps in index order and hands over their records in that order, each waiting for a place before the next, and COMMIT_END after
the last has completed. `computes` says what each step computes: CLEAR, END_GRACE and LIFECYCLE; POLICY, with a FLOOR record for each cell
outside the new window; INSTALL with its SLOT record and then, on an ISSUE slot, n = the old C or 0, Lc = min(LIMIT, n + budget) or LIMIT and
C = min(n + S, Lc) with a CEILING record; on any other, F = P = the old F or 0 with a FLOOR record and the PRIOR that G leaves, with a FLOOR
record where it lies outside the window. A new CURRENT at its limit is SPENT. A LIFECYCLE record to RETIRED carries the code in force
(model's choice, log entry 14), and a CEILING and a FLOOR share one key (model's reading, log entry 43). -/
def Obligations.CommitRecordsShowNothing : Prop :=
  (∀ (s : State) (b : Body) (r : Requester) (rest : List Entry),
    s.journal.queue = ⟨.append b, r⟩ :: rest → s.journal.toCopy = none → r = .commitBegin ∨ (∃ last, r = .commitRecord last) →
    (∀ e ∈ s.journal.place, e.requester.ofBatch = false) → s.engine.isSome = true ∨ s.arbiter.hold = .granted →
    ∃ t : State, exec .writeComplete s = .next t ∧ (∀ i, t.slot i = s.slot i) ∧ t.supply.lifeCycle = s.supply.lifeCycle ∧
      t.time = s.time ∧ t.renewal = s.renewal ∧ t.portM = s.portM ∧ t.portL = s.portL ∧ t.queueM = s.queueM ∧
      t.queueL = s.queueL ∧ t.engine = s.engine ∧ t.journal.banks = s.journal.banks ∧ s.journal.AppendStands true b t.journal ∧
      ∀ c, s.commit = some c → rest.length < 8 → s.supply.run = .run ∨ s.supply.run = .flush →
        let x := s.compute c.tc s.renewal.sequence s.renewal.applied
        let entries := entriesOf .commitRecord x.2.2
        let room := 8 - rest.length
        let ends : List Entry := [⟨.append (.commitEnd s.renewal.sequence), .commitEnd⟩]
        (r = .commitBegin → s.journal.place = [] → x.2.2 ≠ [] →
          t.commit = some { c with stage := .records, slots := x.1, lifecycle := x.2.1, rest := x.2.2.drop (room + 1) } ∧
          t.journal.queue = rest ++ entries.take room ∧ t.journal.place = (entries.drop room).take 1) ∧
        (r = .commitBegin → s.journal.place = [] → x.2.2 = [] →
          t.commit = some { c with stage := .ending, slots := x.1, lifecycle := x.2.1, rest := [] } ∧ t.journal.queue = rest ++ ends) ∧
        (r = .commitRecord true → s.journal.place = [] →
          t.commit = some { c with stage := .ending, rest := [] } ∧ t.journal.queue = rest ++ ends) ∧
        (r = .commitRecord false → s.journal.place = [] → t.commit = some c ∧ t.journal.queue = rest) ∧
        (∀ e y more last, r = .commitRecord false → rest.length = 7 → s.journal.place = [e] → e.requester = .commitRecord last →
          c.stage = .records → c.rest = y :: more →
          t.commit = some { c with rest := more } ∧ t.journal.queue = rest ++ [e] ∧
          t.journal.place = [⟨.append y, .commitRecord more.isEmpty⟩])) ∧
  -- computes
  ∀ (s : State) (tc q : Nat),
    s.compute tc q [] = ([], none, []) ∧
    (∀ a more, let x := s.computeStep tc q a
      let y := s.compute tc q more
      s.compute tc q (a :: more) = (x.1 ++ y.1, (if x.2.1.isSome then x.2.1 else y.2.1), x.2.2 ++ y.2.2)) ∧
    (∀ n target code, s.computeStep tc q ⟨n, .lifecycle target code⟩ =
      ([], some (target, code), [.lifecycle target (code.getD s.time.code) (some q)])) ∧
    ∀ (n : Nat) (i : Fin 24),
      let old := s.slot i
      let makes (part : AppliedPart) (c : NewSlot) (records : List Body) : Prop :=
        s.computeStep tc q ⟨n, part⟩ =
          ([c], none, .slot i (some q) (SlotMeta.of c.role c.userMap c.notifyMap c.policy c.current c.prior) :: records)
      let floorOf (g f : Nat) : List Body := [.floor i g f (some q)]
      -- a PRIOR, or a CURRENT with floors, as the window of stride S leaves it, and its FLOOR record
      let windowed (stride : Nat) (before after : Option Prior) (records : List Body) : Prop :=
        (before = none → after = none ∧ records = []) ∧ ∀ k, before = some k →
          (k.f < k.persisted + stride → after = some k ∧ records = []) ∧
          (k.persisted + stride ≤ k.f → after = some { k with persisted := k.f } ∧ records = floorOf k.generation k.f)
      let kept (stride : Nat) (after : Option Current) (records : List Body) : Prop :=
        (old.current = none → after = none ∧ records = []) ∧ ∀ k, old.current = some k →
          (∀ a b l, k.counters = .issue a b l → after = some k ∧ records = []) ∧
          ∀ f p, k.counters = .floor f p →
            (f < p + stride → after = some k ∧ records = []) ∧
            (p + stride ≤ f → after = some { k with counters := .floor f f } ∧ records = floorOf k.generation f)
      let stored (y : Policy) (role : Role) : Policy := if role = .issue then { y with grace := 0 } else y
      makes (.clear i) ⟨i, .empty, .none, .none, none, none, none, false⟩ [] ∧
      makes (.endGrace i) ⟨i, old.role, old.userMap, old.notifyMap, old.policy, old.current, none, false⟩ [] ∧
      (∀ y user notify, ∃ current prior first second, kept y.stride current first ∧ windowed y.stride old.prior prior second ∧
        makes (.policy i y user notify) ⟨i, old.role, user.getD old.userMap, notify.getD old.notifyMap, some (stored y old.role),
          current, prior, false⟩ (first ++ second)) ∧
      ∀ g life budget define given bank y,
        let part : AppliedPart := .install i g life budget define given bank
        let role := match define with | some d => d.role | none => old.role
        let user := match define with | some d => d.userMap | none => old.userMap
        let notify := match define with | some d => d.notifyMap | none => old.notifyMap
        let carry := y.continuation = .carryOn
        (match given with | some w => some (stored w role) | none => old.policy) = some y →
        (role = .issue →
          let n0 := match old.current with
            | some k => (match k.counters with | .issue _ c _ => if carry then c else 0 | .floor .. => 0)
            | none => 0
          let limit := match budget with | some w => min LIMIT (n0 + w) | none => LIMIT
          let ceiling := min (n0 + y.stride) limit
          makes part ⟨i, role, user, notify, some y, some ⟨g, if n0 = limit then .spent else .live, tc, life,
            .issue n0 ceiling limit, bank, false, false⟩, none, true⟩ [.ceiling i g ceiling (some q)]) ∧
        (role ≠ .issue →
          let f0 := match old.current with | some k => if carry then k.counters.floors.1 else 0 | none => 0
          let left : Option Prior := if role = .accept then
              (match old.current with
               | some k => if 0 < y.grace then some ⟨k.generation, k.activation, k.counters.floors.1, k.counters.floors.2,
                   tc + y.grace, k.bank⟩ else old.prior
               | none => old.prior)
            else none
          ∃ prior records, windowed y.stride left prior records ∧
            makes part ⟨i, role, user, notify, some y, some ⟨g, if f0 = LIMIT then .spent else .live, tc, life, .floor f0 f0, bank,
              false, false⟩, prior, true⟩ (floorOf g f0 ++ records))

/-- A first failure (R148, R149): the failure count is 1 and the entry stays in service. A record spoils its position and moves to the next; a
copy spoils its position, leaves its original live where it is, and the write position moves past it and past each live record after it; a
bank holds no valid image until a later write of it succeeds. That a bank whose erase failed is left spoiled, so that it is not erased, is the
model's inference (log entry 22). -/
def Obligations.FirstFailureRetries : Prop :=
  ∀ (s : State) (w : Write) (r : Requester) (rest : List Entry), s.journal.queue = ⟨w, r⟩ :: rest → s.journal.failures = 0 →
    ∃ j : Journal, exec .writeFailure s = .next { s with journal := j } ∧ j.failures = 1 ∧ j.queue = s.journal.queue ∧
      j.place = s.journal.place ∧ j.live = s.journal.live ∧
      (∀ b, w = .append b → j.banks = s.journal.banks ∧ cellGet s.journal.writePosition j.ring = some .spoiled ∧
        (∀ k, k ≠ s.journal.writePosition → cellGet k j.ring = cellGet k s.journal.ring) ∧
        (s.journal.toCopy = none → j.writePosition = nextPosition s.journal.writePosition) ∧
        (s.journal.toCopy.isSome = true → s.journal.writePosition < 512 →
          (∃ a < 512, s.journal.isLive a = false) → ∃ n < 512,
          j.writePosition = (s.journal.writePosition + 2 + n) % 512 ∧ s.journal.isLive j.writePosition = false ∧
          ∀ m < n, s.journal.isLive ((s.journal.writePosition + 2 + m) % 512) = true)) ∧
      (∀ i k g key, w = .bankWrite i k g key → j.ring = s.journal.ring ∧ j.writePosition = s.journal.writePosition ∧
        (∀ h, j.validImage i k h = false) ∧
        ∃ t : State, exec .writeComplete { s with journal := j } = .next t ∧ t.journal.validImage i k g = true) ∧
      (∀ i k, w = .bankErase i k → j.ring = s.journal.ring ∧ j.writePosition = s.journal.writePosition ∧
        (j.bank i k).isSome = true)

/-- A second failure (R58, R98, R118, R127, R150, R156, R167, R170, R177). In RUN or FLUSH it is FAULT: every write is dropped, the write
position stays, every write wait ends with its owner and waiters refused FAULT, a batch in STAGING or CHECKING is refused FAULT, an armed one
stays with a requested hold withdrawn, a commit stops with its hold released, Tb is kept with no checkpoint and no deferred tick, and no
counter, floor, cell or pin changes; then the event settles. In STARTING the fault mark is set, every write is dropped, a roll-forward leaves
its commit open in the store and the renewal engine as it was, an erase keeps its progress, and start-up goes on to its end, which is FAULT.
That the second failure spoils its position and leaves the write position there is the model's inference (log entry 35). -/
def Obligations.SecondFailureEntersFault : Prop :=
  ∀ (s : State) (e : Entry) (rest : List Entry), s.journal.queue = e :: rest → s.journal.failures ≠ 0 →
    (s.supply.run = .run ∨ s.supply.run = .flush → ∃ u : State, exec .writeFailure s = .next u.settle ∧
      u.settle.supply.run = .fault ∧
      u.supply = { s.supply with run := .fault } ∧ u.acknowledges = !s.supply.warning ∧
      u.journal.queue = [] ∧ u.journal.place = [] ∧ u.journal.writePosition = s.journal.writePosition ∧
      u.journal.lap = s.journal.lap ∧
      (∀ k, k ≠ s.journal.writePosition → cellGet k u.journal.ring = cellGet k s.journal.ring) ∧
      u.time = { s.time with checkpoint := none, deferred := false } ∧
      u.commit = (if s.renewal.state = .committing then none else s.commit) ∧
      (s.renewal.state = .staging ∨ s.renewal.state = .checking → u.renewal.state = .idle ∧
        u.renewal.result = ⟨s.renewal.sequence, .refused .fault, s.renewal.outcomes⟩ ∧
        u.queueM = arrive s.queueM ⟨.batchRefused, none, none, some s.renewal.sequence, s.time.t⟩ ∧
        u.queueL = arrive s.queueL ⟨.batchRefused, none, none, some s.renewal.sequence, s.time.t⟩) ∧
      (s.renewal.state = .idle ∨ s.renewal.state = .armed ∨ s.renewal.state = .committing →
        u.renewal = s.renewal ∧ u.engine = s.engine ∧ u.queueM = s.queueM ∧ u.queueL = s.queueL) ∧
      (s.renewal.state = .armed → s.arbiter.hold = .requested → u.arbiter.hold = .none) ∧
      (s.renewal.state = .committing → u.arbiter.hold = .none) ∧
      (∀ i, (u.slot i).current = (s.slot i).current ∧ (u.slot i).prior = (s.slot i).prior ∧ (u.slot i).pin = (s.slot i).pin ∧
        (u.slot i).role = (s.slot i).role ∧ (u.slot i).policy = (s.slot i).policy ∧ (u.slot i).wait = none) ∧
      (∀ i w x, (s.slot i).wait = some w → x ∈ w.owner :: w.waiters →
        (u.port x).request = none ∧ (u.port x).reply = .reply .fault [] ∧ (u.port x).lastRefusal = .fault) ∧
      (∀ x, s.canceller = some x → (u.port x).request = none ∧ (u.port x).reply = .reply .fault [])) ∧
    (s.supply.run = .starting → ∃ u : State, exec .writeFailure s = .next u.settle ∧ u.settle.supply.run = .fault ∧
      u.supply.run = .fault ∧ u.supply.faultMark = true ∧ u.supply.lifeCycle = s.supply.lifeCycle ∧
      u.journal.queue = [] ∧ u.journal.place = [] ∧ u.journal.writePosition = s.journal.writePosition ∧
      (∀ b, e.write = .append b → cellGet s.journal.writePosition u.journal.ring = some .spoiled) ∧
      (∀ k, k ≠ s.journal.writePosition → cellGet k u.journal.ring = cellGet k s.journal.ring) ∧
      u.commit = none ∧ u.time.t = s.time.t ∧ u.time.tb = s.time.tb ∧ u.time.checkpoint = s.time.checkpoint ∧
      (s.renewal.state = .committing → u.renewal = s.renewal) ∧ (s.commit = none → u.supply.erase = s.supply.erase) ∧
      (s.queueM = [] → u.queueM.head? = some ⟨.restarted, none, none, none, s.time.t⟩) ∧
      ∀ i, (u.slot i).role = (s.slot i).role ∧ (u.slot i).policy = (s.slot i).policy ∧
        (u.slot i).current.map (fun k => (k.generation, k.activation, k.lifetime, k.counters, k.bank)) =
          (s.slot i).current.map (fun k => (k.generation, k.activation, k.lifetime, k.counters, k.bank)))

/-- CARRY_FORWARD (R146, R147): the copy stands at the write position with the present lap count, it is live and its original stale, and the
write position moves on; the entry in service stays in service and nothing else changes. With no copy due the event is not due. -/
def Obligations.CarryForwardCopies : Prop :=
  ∀ (s : State) (b : Body) (r : Requester) (rest : List Entry), s.journal.queue = ⟨.append b, r⟩ :: rest →
    (∀ x, s.journal.toCopy = some x → s.journal.writePosition < 512 → ∃ j : Journal, exec .carryForward s = .next { s with journal := j } ∧
      cellGet s.journal.writePosition j.ring = some (.record (.made s.journal.lap x.body)) ∧
      (∀ k, k ≠ s.journal.writePosition → cellGet k j.ring = cellGet k s.journal.ring) ∧
      j.banks = s.journal.banks ∧ j.queue = s.journal.queue ∧ j.place = s.journal.place ∧ j.failures = s.journal.failures ∧
      j.writePosition = (if s.journal.writePosition = 511 then 0 else s.journal.writePosition + 1) ∧
      j.lap = (if s.journal.writePosition = 511 then s.journal.lap + 1 else s.journal.lap) ∧
      j.isLive s.journal.writePosition = true ∧ j.isLive j.writePosition = false ∧
      (∀ k, k ≠ s.journal.writePosition → k ≠ j.writePosition → j.isLive k = s.journal.isLive k)) ∧
    (s.journal.toCopy = none → exec .carryForward s = .next s)

/-- The nonvolatile store keeps its canonical form and the journal controller its bounds (R137, R142): every step keeps both. -/
def Obligations.JournalLawIsKept : Prop :=
  ∀ s t : State, s.journal.Lawful → step s = .next t → t.journal.Lawful

/-- The law of the ports (R188, R197, R198): the byte count is at most 224, the bus timer runs in WRITE and READ and the stretch timer in
STRETCH, and the reply buffer is NOT_READY while a request is in flight. Every step keeps it. -/
def Obligations.PortLawIsKept : Prop :=
  ∀ s t : State, s.PortsLawful → step s = .next t → t.PortsLawful

/-- The law of an event's end (R64, R162, R163, R191): every step leaves no grant to make, RUN only with the warning released, and the error
latch of every open write frame set at ports that do not acknowledge. So under this law a port that holds a complete frame finds the part
at rest, as the statements about the commands assume. That all the grants of an event are made at its end, so that none is left, is the
model's reading of R64 (log entry 33). -/
def Obligations.QuietLawIsKept : Prop :=
  (∀ s t : State, s.QuietLawful → step s = .next t → t.QuietLawful) ∧
  ∀ (s : State) (p : Port) (code : Byte), s.QuietLawful → s.Holds p code → s.AtRest

/-- The part right after reset meets every law that the steps keep, and the law of the key table (R12, R25, R36) is kept: by every step from a
state outside STARTING whose journal is lawful. In every slot PRIOR is below CURRENT and CURRENT below NEXT in generation, n ≤ C ≤ Lc ≤ LIMIT,
and P ≤ F ≤ min(P + S − 1, LIMIT). The law carries the work in flight that will change the table: the record of a write wait, the counter in
comparison, the steps of the batch and the contents of the commit, each of which leaves the table lawful; and who may hold the engine. In
STARTING the table is being rebuilt from the store and the law says nothing; the first start-up of a delivered part meets it. -/
def Obligations.ResetMeetsTheLaws : Prop :=
  (State.reset.time.Lawful ∧ State.reset.DemandsLawful ∧ State.reset.journal.Lawful ∧ State.reset.PortsLawful ∧
    State.reset.QuietLawful ∧ State.reset.KeysLawful) ∧
  (∀ (adrM adrL : Bool) (t : State), exec (.rstnRelease adrM adrL) State.reset = .next t → t.KeysLawful ∧ t.supply.run = .run) ∧
  (∀ s t : State, s.KeysLawful → s.journal.Lawful → s.supply.run ≠ .starting → step s = .next t → t.KeysLawful) ∧
  ∀ (s : State) (i : Fin 24), s.KeysLawful → s.supply.run ≠ .starting →
    (∀ k o, (s.slot i).current = some k → (s.slot i).prior = some o → o.generation < k.generation) ∧
    (∀ k x, (s.slot i).current = some k → (s.slot i).next = some x → k.generation < x.generation) ∧
    (∀ o x, (s.slot i).prior = some o → (s.slot i).next = some x → o.generation < x.generation) ∧
    (∀ k n c l, (s.slot i).current = some k → k.counters = .issue n c l → n ≤ c ∧ c ≤ l ∧ l ≤ LIMIT) ∧
    (∀ k f p, (s.slot i).current = some k → k.counters = .floor f p →
      p ≤ f ∧ ∀ y ∈ (s.slot i).policy, f ≤ min (p + y.stride - 1) LIMIT) ∧
    ∀ o, (s.slot i).prior = some o → o.persisted ≤ o.f ∧ ∀ y ∈ (s.slot i).policy, o.f ≤ min (o.persisted + y.stride - 1) LIMIT
end

