-- ==== Sys2Proof/Laws/Demands.lean ====
section
/-! SUPPORT. The law of the demand queues (R178 to R181), and how a store of entries changes. -/

namespace Sys2Proof.Machine

/-- Whether a queue holds the marker. -/
def holdsMarker (q : List Demand) : Bool := q.any fun e => decide (e.kind = .queueFull)

theorem arrive_of_marker {q : List Demand} {d : Demand} (h : holdsMarker q = true) : arrive q d = q := by
  unfold holdsMarker at h; simp [arrive, h]

/-- An arrival leaves the kinds and slots of the entries already held, and their order, as they are. -/
theorem arrive_prefix (q : List Demand) (d : Demand) :
    (q.map fun e => (e.kind, e.slot)) <+: (arrive q d).map fun e => (e.kind, e.slot) := by
  unfold arrive; split
  · exact List.prefix_rfl
  · split
    · rw [List.map_map]
      have : ((fun e : Demand => (e.kind, e.slot)) ∘ fun e : Demand =>
          if d.same e then { e with generation := d.generation, sequence := d.sequence, stamp := d.stamp } else e) =
          fun e => (e.kind, e.slot) := by
        funext e; dsimp; split <;> rfl
      simp [this]
    · split <;> simp

/-- An arrival never takes an entry away, and stores at most one. -/
theorem arrive_length (q : List Demand) (d : Demand) :
    (arrive q d).length = q.length ∨ (arrive q d).length = q.length + 1 := by
  unfold arrive; split
  · exact .inl rfl
  · split
    · simp
    · split <;> simp

end Sys2Proof.Machine
end

