-- ==== Sys2Proof/Laws/State.lean ====
section
/-! SUPPORT. What each shared operation leaves alone: one lemma per field per update. -/

namespace Sys2Proof.Machine

variable (s : State)

@[simp] theorem State.setSlot_pending (i : Fin 24) (c : Slot) : (s.setSlot i c).pending = s.pending := rfl
@[simp] theorem State.setSlot_engine (i : Fin 24) (c : Slot) : (s.setSlot i c).engine = s.engine := rfl
@[simp] theorem State.setSlot_arbiter (i : Fin 24) (c : Slot) : (s.setSlot i c).arbiter = s.arbiter := rfl
@[simp] theorem State.setSlot_renewal (i : Fin 24) (c : Slot) : (s.setSlot i c).renewal = s.renewal := rfl
@[simp] theorem State.setSlot_commit (i : Fin 24) (c : Slot) : (s.setSlot i c).commit = s.commit := rfl
@[simp] theorem State.setSlot_time (i : Fin 24) (c : Slot) : (s.setSlot i c).time = s.time := rfl
@[simp] theorem State.setSlot_journal (i : Fin 24) (c : Slot) : (s.setSlot i c).journal = s.journal := rfl
@[simp] theorem State.setSlot_supply (i : Fin 24) (c : Slot) : (s.setSlot i c).supply = s.supply := rfl
@[simp] theorem State.setSlot_queueM (i : Fin 24) (c : Slot) : (s.setSlot i c).queueM = s.queueM := rfl
@[simp] theorem State.setSlot_queueL (i : Fin 24) (c : Slot) : (s.setSlot i c).queueL = s.queueL := rfl
@[simp] theorem State.setSlot_portM (i : Fin 24) (c : Slot) : (s.setSlot i c).portM = s.portM := rfl
@[simp] theorem State.setSlot_portL (i : Fin 24) (c : Slot) : (s.setSlot i c).portL = s.portL := rfl

@[simp] theorem State.setPort_pending (p : Port) (r : PortRecord) : (s.setPort p r).pending = s.pending := by cases p <;> rfl
@[simp] theorem State.setPort_slots (p : Port) (r : PortRecord) : (s.setPort p r).slots = s.slots := by cases p <;> rfl
@[simp] theorem State.setPort_engine (p : Port) (r : PortRecord) : (s.setPort p r).engine = s.engine := by cases p <;> rfl
@[simp] theorem State.setPort_arbiter (p : Port) (r : PortRecord) : (s.setPort p r).arbiter = s.arbiter := by cases p <;> rfl
@[simp] theorem State.setPort_renewal (p : Port) (r : PortRecord) : (s.setPort p r).renewal = s.renewal := by cases p <;> rfl
@[simp] theorem State.setPort_commit (p : Port) (r : PortRecord) : (s.setPort p r).commit = s.commit := by cases p <;> rfl
@[simp] theorem State.setPort_time (p : Port) (r : PortRecord) : (s.setPort p r).time = s.time := by cases p <;> rfl
@[simp] theorem State.setPort_journal (p : Port) (r : PortRecord) : (s.setPort p r).journal = s.journal := by cases p <;> rfl
@[simp] theorem State.setPort_supply (p : Port) (r : PortRecord) : (s.setPort p r).supply = s.supply := by cases p <;> rfl
@[simp] theorem State.setPort_queueM (p : Port) (r : PortRecord) : (s.setPort p r).queueM = s.queueM := by cases p <;> rfl
@[simp] theorem State.setPort_queueL (p : Port) (r : PortRecord) : (s.setPort p r).queueL = s.queueL := by cases p <;> rfl

@[simp] theorem State.setQueue_pending (p : Port) (q : List Demand) : (s.setQueue p q).pending = s.pending := by cases p <;> rfl
@[simp] theorem State.setQueue_slots (p : Port) (q : List Demand) : (s.setQueue p q).slots = s.slots := by cases p <;> rfl
@[simp] theorem State.setQueue_engine (p : Port) (q : List Demand) : (s.setQueue p q).engine = s.engine := by cases p <;> rfl
@[simp] theorem State.setQueue_arbiter (p : Port) (q : List Demand) : (s.setQueue p q).arbiter = s.arbiter := by cases p <;> rfl
@[simp] theorem State.setQueue_renewal (p : Port) (q : List Demand) : (s.setQueue p q).renewal = s.renewal := by cases p <;> rfl
@[simp] theorem State.setQueue_commit (p : Port) (q : List Demand) : (s.setQueue p q).commit = s.commit := by cases p <;> rfl
@[simp] theorem State.setQueue_time (p : Port) (q : List Demand) : (s.setQueue p q).time = s.time := by cases p <;> rfl
@[simp] theorem State.setQueue_journal (p : Port) (q : List Demand) : (s.setQueue p q).journal = s.journal := by cases p <;> rfl
@[simp] theorem State.setQueue_supply (p : Port) (q : List Demand) : (s.setQueue p q).supply = s.supply := by cases p <;> rfl
@[simp] theorem State.setQueue_portM (p : Port) (q : List Demand) : (s.setQueue p q).portM = s.portM := by cases p <;> rfl
@[simp] theorem State.setQueue_portL (p : Port) (q : List Demand) : (s.setQueue p q).portL = s.portL := by cases p <;> rfl

@[simp] theorem State.raise_pending (w : PortSet) (d : Demand) : (s.raise w d).pending = s.pending := by unfold State.raise; split <;> split <;> rfl
@[simp] theorem State.raise_slots (w : PortSet) (d : Demand) : (s.raise w d).slots = s.slots := by unfold State.raise; split <;> split <;> rfl
@[simp] theorem State.raise_engine (w : PortSet) (d : Demand) : (s.raise w d).engine = s.engine := by unfold State.raise; split <;> split <;> rfl
@[simp] theorem State.raise_arbiter (w : PortSet) (d : Demand) : (s.raise w d).arbiter = s.arbiter := by unfold State.raise; split <;> split <;> rfl
@[simp] theorem State.raise_renewal (w : PortSet) (d : Demand) : (s.raise w d).renewal = s.renewal := by unfold State.raise; split <;> split <;> rfl
@[simp] theorem State.raise_commit (w : PortSet) (d : Demand) : (s.raise w d).commit = s.commit := by unfold State.raise; split <;> split <;> rfl
@[simp] theorem State.raise_time (w : PortSet) (d : Demand) : (s.raise w d).time = s.time := by unfold State.raise; split <;> split <;> rfl
@[simp] theorem State.raise_journal (w : PortSet) (d : Demand) : (s.raise w d).journal = s.journal := by unfold State.raise; split <;> split <;> rfl
@[simp] theorem State.raise_supply (w : PortSet) (d : Demand) : (s.raise w d).supply = s.supply := by unfold State.raise; split <;> split <;> rfl
@[simp] theorem State.raise_portM (w : PortSet) (d : Demand) : (s.raise w d).portM = s.portM := by unfold State.raise; split <;> split <;> rfl
@[simp] theorem State.raise_portL (w : PortSet) (d : Demand) : (s.raise w d).portL = s.portL := by unfold State.raise; split <;> split <;> rfl

@[simp] theorem State.raiseSlot_pending (k : DemandKind) (i : Fin 24) (g : Nat) : (s.raiseSlot k i g).pending = s.pending := by unfold State.raiseSlot; simp
@[simp] theorem State.raiseSlot_slots (k : DemandKind) (i : Fin 24) (g : Nat) : (s.raiseSlot k i g).slots = s.slots := by unfold State.raiseSlot; simp
@[simp] theorem State.raiseSlot_engine (k : DemandKind) (i : Fin 24) (g : Nat) : (s.raiseSlot k i g).engine = s.engine := by unfold State.raiseSlot; simp
@[simp] theorem State.raiseSlot_arbiter (k : DemandKind) (i : Fin 24) (g : Nat) : (s.raiseSlot k i g).arbiter = s.arbiter := by unfold State.raiseSlot; simp
@[simp] theorem State.raiseSlot_renewal (k : DemandKind) (i : Fin 24) (g : Nat) : (s.raiseSlot k i g).renewal = s.renewal := by unfold State.raiseSlot; simp
@[simp] theorem State.raiseSlot_commit (k : DemandKind) (i : Fin 24) (g : Nat) : (s.raiseSlot k i g).commit = s.commit := by unfold State.raiseSlot; simp
@[simp] theorem State.raiseSlot_time (k : DemandKind) (i : Fin 24) (g : Nat) : (s.raiseSlot k i g).time = s.time := by unfold State.raiseSlot; simp
@[simp] theorem State.raiseSlot_journal (k : DemandKind) (i : Fin 24) (g : Nat) : (s.raiseSlot k i g).journal = s.journal := by unfold State.raiseSlot; simp
@[simp] theorem State.raiseSlot_supply (k : DemandKind) (i : Fin 24) (g : Nat) : (s.raiseSlot k i g).supply = s.supply := by unfold State.raiseSlot; simp
@[simp] theorem State.raiseSlot_portM (k : DemandKind) (i : Fin 24) (g : Nat) : (s.raiseSlot k i g).portM = s.portM := by unfold State.raiseSlot; simp
@[simp] theorem State.raiseSlot_portL (k : DemandKind) (i : Fin 24) (g : Nat) : (s.raiseSlot k i g).portL = s.portL := by unfold State.raiseSlot; simp

@[simp] theorem State.raiseBatch_pending (k : DemandKind) (q : Nat) : (s.raiseBatch k q).pending = s.pending := by unfold State.raiseBatch; simp
@[simp] theorem State.raiseBatch_slots (k : DemandKind) (q : Nat) : (s.raiseBatch k q).slots = s.slots := by unfold State.raiseBatch; simp
@[simp] theorem State.raiseBatch_engine (k : DemandKind) (q : Nat) : (s.raiseBatch k q).engine = s.engine := by unfold State.raiseBatch; simp
@[simp] theorem State.raiseBatch_arbiter (k : DemandKind) (q : Nat) : (s.raiseBatch k q).arbiter = s.arbiter := by unfold State.raiseBatch; simp
@[simp] theorem State.raiseBatch_renewal (k : DemandKind) (q : Nat) : (s.raiseBatch k q).renewal = s.renewal := by unfold State.raiseBatch; simp
@[simp] theorem State.raiseBatch_commit (k : DemandKind) (q : Nat) : (s.raiseBatch k q).commit = s.commit := by unfold State.raiseBatch; simp
@[simp] theorem State.raiseBatch_time (k : DemandKind) (q : Nat) : (s.raiseBatch k q).time = s.time := by unfold State.raiseBatch; simp
@[simp] theorem State.raiseBatch_journal (k : DemandKind) (q : Nat) : (s.raiseBatch k q).journal = s.journal := by unfold State.raiseBatch; simp
@[simp] theorem State.raiseBatch_supply (k : DemandKind) (q : Nat) : (s.raiseBatch k q).supply = s.supply := by unfold State.raiseBatch; simp
@[simp] theorem State.raiseBatch_portM (k : DemandKind) (q : Nat) : (s.raiseBatch k q).portM = s.portM := by unfold State.raiseBatch; simp
@[simp] theorem State.raiseBatch_portL (k : DemandKind) (q : Nat) : (s.raiseBatch k q).portL = s.portL := by unfold State.raiseBatch; simp

@[simp] theorem State.complete_pending (p : Port) (st : Status) (b : List Byte) : (s.complete p st b).pending = s.pending := by unfold State.complete; simp
@[simp] theorem State.complete_slots (p : Port) (st : Status) (b : List Byte) : (s.complete p st b).slots = s.slots := by unfold State.complete; simp
@[simp] theorem State.complete_engine (p : Port) (st : Status) (b : List Byte) : (s.complete p st b).engine = s.engine := by unfold State.complete; simp
@[simp] theorem State.complete_arbiter (p : Port) (st : Status) (b : List Byte) : (s.complete p st b).arbiter = s.arbiter := by unfold State.complete; simp
@[simp] theorem State.complete_renewal (p : Port) (st : Status) (b : List Byte) : (s.complete p st b).renewal = s.renewal := by unfold State.complete; simp
@[simp] theorem State.complete_commit (p : Port) (st : Status) (b : List Byte) : (s.complete p st b).commit = s.commit := by unfold State.complete; simp
@[simp] theorem State.complete_time (p : Port) (st : Status) (b : List Byte) : (s.complete p st b).time = s.time := by unfold State.complete; simp
@[simp] theorem State.complete_journal (p : Port) (st : Status) (b : List Byte) : (s.complete p st b).journal = s.journal := by unfold State.complete; simp
@[simp] theorem State.complete_supply (p : Port) (st : Status) (b : List Byte) : (s.complete p st b).supply = s.supply := by unfold State.complete; simp
@[simp] theorem State.complete_queueM (p : Port) (st : Status) (b : List Byte) : (s.complete p st b).queueM = s.queueM := by unfold State.complete; simp
@[simp] theorem State.complete_queueL (p : Port) (st : Status) (b : List Byte) : (s.complete p st b).queueL = s.queueL := by unfold State.complete; simp

@[simp] theorem State.refuse_pending (p : Port) (st : Status) : (s.refuse p st).pending = s.pending := by unfold State.refuse; simp
@[simp] theorem State.refuse_slots (p : Port) (st : Status) : (s.refuse p st).slots = s.slots := by unfold State.refuse; simp
@[simp] theorem State.refuse_engine (p : Port) (st : Status) : (s.refuse p st).engine = s.engine := by unfold State.refuse; simp
@[simp] theorem State.refuse_arbiter (p : Port) (st : Status) : (s.refuse p st).arbiter = s.arbiter := by unfold State.refuse; simp
@[simp] theorem State.refuse_renewal (p : Port) (st : Status) : (s.refuse p st).renewal = s.renewal := by unfold State.refuse; simp
@[simp] theorem State.refuse_commit (p : Port) (st : Status) : (s.refuse p st).commit = s.commit := by unfold State.refuse; simp
@[simp] theorem State.refuse_time (p : Port) (st : Status) : (s.refuse p st).time = s.time := by unfold State.refuse; simp
@[simp] theorem State.refuse_journal (p : Port) (st : Status) : (s.refuse p st).journal = s.journal := by unfold State.refuse; simp
@[simp] theorem State.refuse_supply (p : Port) (st : Status) : (s.refuse p st).supply = s.supply := by unfold State.refuse; simp
@[simp] theorem State.refuse_queueM (p : Port) (st : Status) : (s.refuse p st).queueM = s.queueM := by unfold State.refuse; simp
@[simp] theorem State.refuse_queueL (p : Port) (st : Status) : (s.refuse p st).queueL = s.queueL := by unfold State.refuse; simp

@[simp] theorem State.handOver_pending (w : Write) (r : Requester) : (s.handOver w r).pending = s.pending := by unfold State.handOver; split <;> rfl
@[simp] theorem State.handOver_slots (w : Write) (r : Requester) : (s.handOver w r).slots = s.slots := by unfold State.handOver; split <;> rfl
@[simp] theorem State.handOver_engine (w : Write) (r : Requester) : (s.handOver w r).engine = s.engine := by unfold State.handOver; split <;> rfl
@[simp] theorem State.handOver_arbiter (w : Write) (r : Requester) : (s.handOver w r).arbiter = s.arbiter := by unfold State.handOver; split <;> rfl
@[simp] theorem State.handOver_renewal (w : Write) (r : Requester) : (s.handOver w r).renewal = s.renewal := by unfold State.handOver; split <;> rfl
@[simp] theorem State.handOver_commit (w : Write) (r : Requester) : (s.handOver w r).commit = s.commit := by unfold State.handOver; split <;> rfl
@[simp] theorem State.handOver_time (w : Write) (r : Requester) : (s.handOver w r).time = s.time := by unfold State.handOver; split <;> rfl
@[simp] theorem State.handOver_supply (w : Write) (r : Requester) : (s.handOver w r).supply = s.supply := by unfold State.handOver; split <;> rfl
@[simp] theorem State.handOver_queueM (w : Write) (r : Requester) : (s.handOver w r).queueM = s.queueM := by unfold State.handOver; split <;> rfl
@[simp] theorem State.handOver_queueL (w : Write) (r : Requester) : (s.handOver w r).queueL = s.queueL := by unfold State.handOver; split <;> rfl
@[simp] theorem State.handOver_portM (w : Write) (r : Requester) : (s.handOver w r).portM = s.portM := by unfold State.handOver; split <;> rfl
@[simp] theorem State.handOver_portL (w : Write) (r : Requester) : (s.handOver w r).portL = s.portL := by unfold State.handOver; split <;> rfl

@[simp] theorem State.commitStart_pending : (s.commitStart).pending = s.pending := by unfold State.commitStart; split <;> rfl
@[simp] theorem State.commitStart_slots : (s.commitStart).slots = s.slots := by unfold State.commitStart; split <;> rfl
@[simp] theorem State.commitStart_engine : (s.commitStart).engine = s.engine := by unfold State.commitStart; split <;> rfl
@[simp] theorem State.commitStart_renewal : (s.commitStart).renewal = s.renewal := by unfold State.commitStart; split <;> rfl
@[simp] theorem State.commitStart_commit : (s.commitStart).commit = s.commit := by unfold State.commitStart; split <;> rfl
@[simp] theorem State.commitStart_time : (s.commitStart).time = s.time := by unfold State.commitStart; split <;> rfl
@[simp] theorem State.commitStart_journal : (s.commitStart).journal = s.journal := by unfold State.commitStart; split <;> rfl
@[simp] theorem State.commitStart_supply : (s.commitStart).supply = s.supply := by unfold State.commitStart; split <;> rfl
@[simp] theorem State.commitStart_queueM : (s.commitStart).queueM = s.queueM := by unfold State.commitStart; split <;> rfl
@[simp] theorem State.commitStart_queueL : (s.commitStart).queueL = s.queueL := by unfold State.commitStart; split <;> rfl
@[simp] theorem State.commitStart_portM : (s.commitStart).portM = s.portM := by unfold State.commitStart; split <;> rfl
@[simp] theorem State.commitStart_portL : (s.commitStart).portL = s.portL := by unfold State.commitStart; split <;> rfl

@[simp] theorem State.checkpointTest_pending : (s.checkpointTest).pending = s.pending := by unfold State.checkpointTest; split <;> simp
@[simp] theorem State.checkpointTest_slots : (s.checkpointTest).slots = s.slots := by unfold State.checkpointTest; split <;> simp
@[simp] theorem State.checkpointTest_engine : (s.checkpointTest).engine = s.engine := by unfold State.checkpointTest; split <;> simp
@[simp] theorem State.checkpointTest_arbiter : (s.checkpointTest).arbiter = s.arbiter := by unfold State.checkpointTest; split <;> simp
@[simp] theorem State.checkpointTest_renewal : (s.checkpointTest).renewal = s.renewal := by unfold State.checkpointTest; split <;> simp
@[simp] theorem State.checkpointTest_commit : (s.checkpointTest).commit = s.commit := by unfold State.checkpointTest; split <;> simp
@[simp] theorem State.checkpointTest_supply : (s.checkpointTest).supply = s.supply := by unfold State.checkpointTest; split <;> simp
@[simp] theorem State.checkpointTest_queueM : (s.checkpointTest).queueM = s.queueM := by unfold State.checkpointTest; split <;> simp
@[simp] theorem State.checkpointTest_queueL : (s.checkpointTest).queueL = s.queueL := by unfold State.checkpointTest; split <;> simp
@[simp] theorem State.checkpointTest_portM : (s.checkpointTest).portM = s.portM := by unfold State.checkpointTest; split <;> simp
@[simp] theorem State.checkpointTest_portL : (s.checkpointTest).portL = s.portL := by unfold State.checkpointTest; split <;> simp

@[simp] theorem State.setStage_pending (g : CheckStage) : (s.setStage g).pending = s.pending := rfl
@[simp] theorem State.setStage_slots (g : CheckStage) : (s.setStage g).slots = s.slots := rfl
@[simp] theorem State.setStage_engine (g : CheckStage) : (s.setStage g).engine = s.engine := rfl
@[simp] theorem State.setStage_arbiter (g : CheckStage) : (s.setStage g).arbiter = s.arbiter := rfl
@[simp] theorem State.setStage_commit (g : CheckStage) : (s.setStage g).commit = s.commit := rfl
@[simp] theorem State.setStage_time (g : CheckStage) : (s.setStage g).time = s.time := rfl
@[simp] theorem State.setStage_journal (g : CheckStage) : (s.setStage g).journal = s.journal := rfl
@[simp] theorem State.setStage_supply (g : CheckStage) : (s.setStage g).supply = s.supply := rfl
@[simp] theorem State.setStage_queueM (g : CheckStage) : (s.setStage g).queueM = s.queueM := rfl
@[simp] theorem State.setStage_queueL (g : CheckStage) : (s.setStage g).queueL = s.queueL := rfl
@[simp] theorem State.setStage_portM (g : CheckStage) : (s.setStage g).portM = s.portM := rfl
@[simp] theorem State.setStage_portL (g : CheckStage) : (s.setStage g).portL = s.portL := rfl

@[simp] theorem State.addOutcome_pending (o : StepOutcome) : (s.addOutcome o).pending = s.pending := rfl
@[simp] theorem State.addOutcome_slots (o : StepOutcome) : (s.addOutcome o).slots = s.slots := rfl
@[simp] theorem State.addOutcome_engine (o : StepOutcome) : (s.addOutcome o).engine = s.engine := rfl
@[simp] theorem State.addOutcome_arbiter (o : StepOutcome) : (s.addOutcome o).arbiter = s.arbiter := rfl
@[simp] theorem State.addOutcome_commit (o : StepOutcome) : (s.addOutcome o).commit = s.commit := rfl
@[simp] theorem State.addOutcome_time (o : StepOutcome) : (s.addOutcome o).time = s.time := rfl
@[simp] theorem State.addOutcome_journal (o : StepOutcome) : (s.addOutcome o).journal = s.journal := rfl
@[simp] theorem State.addOutcome_supply (o : StepOutcome) : (s.addOutcome o).supply = s.supply := rfl
@[simp] theorem State.addOutcome_queueM (o : StepOutcome) : (s.addOutcome o).queueM = s.queueM := rfl
@[simp] theorem State.addOutcome_queueL (o : StepOutcome) : (s.addOutcome o).queueL = s.queueL := rfl
@[simp] theorem State.addOutcome_portM (o : StepOutcome) : (s.addOutcome o).portM = s.portM := rfl
@[simp] theorem State.addOutcome_portL (o : StepOutcome) : (s.addOutcome o).portL = s.portL := rfl

@[simp] theorem State.present_pending (c : CheckInput) : (s.present c).pending = s.pending := rfl
@[simp] theorem State.present_slots (c : CheckInput) : (s.present c).slots = s.slots := rfl
@[simp] theorem State.present_engine (c : CheckInput) : (s.present c).engine = s.engine := rfl
@[simp] theorem State.present_renewal (c : CheckInput) : (s.present c).renewal = s.renewal := rfl
@[simp] theorem State.present_commit (c : CheckInput) : (s.present c).commit = s.commit := rfl
@[simp] theorem State.present_time (c : CheckInput) : (s.present c).time = s.time := rfl
@[simp] theorem State.present_journal (c : CheckInput) : (s.present c).journal = s.journal := rfl
@[simp] theorem State.present_supply (c : CheckInput) : (s.present c).supply = s.supply := rfl
@[simp] theorem State.present_queueM (c : CheckInput) : (s.present c).queueM = s.queueM := rfl
@[simp] theorem State.present_queueL (c : CheckInput) : (s.present c).queueL = s.queueL := rfl
@[simp] theorem State.present_portM (c : CheckInput) : (s.present c).portM = s.portM := rfl
@[simp] theorem State.present_portL (c : CheckInput) : (s.present c).portL = s.portL := rfl

@[simp] theorem State.setErase_pending (e : Erase) : (s.setErase e).pending = s.pending := rfl
@[simp] theorem State.setErase_slots (e : Erase) : (s.setErase e).slots = s.slots := rfl
@[simp] theorem State.setErase_engine (e : Erase) : (s.setErase e).engine = s.engine := rfl
@[simp] theorem State.setErase_arbiter (e : Erase) : (s.setErase e).arbiter = s.arbiter := rfl
@[simp] theorem State.setErase_renewal (e : Erase) : (s.setErase e).renewal = s.renewal := rfl
@[simp] theorem State.setErase_commit (e : Erase) : (s.setErase e).commit = s.commit := rfl
@[simp] theorem State.setErase_time (e : Erase) : (s.setErase e).time = s.time := rfl
@[simp] theorem State.setErase_journal (e : Erase) : (s.setErase e).journal = s.journal := rfl
@[simp] theorem State.setErase_queueM (e : Erase) : (s.setErase e).queueM = s.queueM := rfl
@[simp] theorem State.setErase_queueL (e : Erase) : (s.setErase e).queueL = s.queueL := rfl
@[simp] theorem State.setErase_portM (e : Erase) : (s.setErase e).portM = s.portM := rfl
@[simp] theorem State.setErase_portL (e : Erase) : (s.setErase e).portL = s.portL := rfl

@[simp] theorem State.setWarning_pending (w : Bool) : (s.setWarning w).pending = s.pending := rfl
@[simp] theorem State.setWarning_slots (w : Bool) : (s.setWarning w).slots = s.slots := rfl
@[simp] theorem State.setWarning_engine (w : Bool) : (s.setWarning w).engine = s.engine := rfl
@[simp] theorem State.setWarning_arbiter (w : Bool) : (s.setWarning w).arbiter = s.arbiter := rfl
@[simp] theorem State.setWarning_renewal (w : Bool) : (s.setWarning w).renewal = s.renewal := rfl
@[simp] theorem State.setWarning_commit (w : Bool) : (s.setWarning w).commit = s.commit := rfl
@[simp] theorem State.setWarning_time (w : Bool) : (s.setWarning w).time = s.time := rfl
@[simp] theorem State.setWarning_journal (w : Bool) : (s.setWarning w).journal = s.journal := rfl
@[simp] theorem State.setWarning_queueM (w : Bool) : (s.setWarning w).queueM = s.queueM := rfl
@[simp] theorem State.setWarning_queueL (w : Bool) : (s.setWarning w).queueL = s.queueL := rfl
@[simp] theorem State.setWarning_portM (w : Bool) : (s.setWarning w).portM = s.portM := rfl
@[simp] theorem State.setWarning_portL (w : Bool) : (s.setWarning w).portL = s.portL := rfl

@[simp] theorem State.setRun_pending (r : RunState) : (s.setRun r).pending = s.pending := rfl
@[simp] theorem State.setRun_slots (r : RunState) : (s.setRun r).slots = s.slots := rfl
@[simp] theorem State.setRun_engine (r : RunState) : (s.setRun r).engine = s.engine := rfl
@[simp] theorem State.setRun_arbiter (r : RunState) : (s.setRun r).arbiter = s.arbiter := rfl
@[simp] theorem State.setRun_renewal (r : RunState) : (s.setRun r).renewal = s.renewal := rfl
@[simp] theorem State.setRun_commit (r : RunState) : (s.setRun r).commit = s.commit := rfl
@[simp] theorem State.setRun_time (r : RunState) : (s.setRun r).time = s.time := rfl
@[simp] theorem State.setRun_journal (r : RunState) : (s.setRun r).journal = s.journal := rfl
@[simp] theorem State.setRun_queueM (r : RunState) : (s.setRun r).queueM = s.queueM := rfl
@[simp] theorem State.setRun_queueL (r : RunState) : (s.setRun r).queueL = s.queueL := rfl
@[simp] theorem State.setRun_portM (r : RunState) : (s.setRun r).portM = s.portM := rfl
@[simp] theorem State.setRun_portL (r : RunState) : (s.setRun r).portL = s.portL := rfl

@[simp] theorem State.withdrawHold_pending : (s.withdrawHold).pending = s.pending := rfl
@[simp] theorem State.withdrawHold_slots : (s.withdrawHold).slots = s.slots := rfl
@[simp] theorem State.withdrawHold_engine : (s.withdrawHold).engine = s.engine := rfl
@[simp] theorem State.withdrawHold_renewal : (s.withdrawHold).renewal = s.renewal := rfl
@[simp] theorem State.withdrawHold_commit : (s.withdrawHold).commit = s.commit := rfl
@[simp] theorem State.withdrawHold_time : (s.withdrawHold).time = s.time := rfl
@[simp] theorem State.withdrawHold_journal : (s.withdrawHold).journal = s.journal := rfl
@[simp] theorem State.withdrawHold_supply : (s.withdrawHold).supply = s.supply := rfl
@[simp] theorem State.withdrawHold_queueM : (s.withdrawHold).queueM = s.queueM := rfl
@[simp] theorem State.withdrawHold_queueL : (s.withdrawHold).queueL = s.queueL := rfl
@[simp] theorem State.withdrawHold_portM : (s.withdrawHold).portM = s.portM := rfl
@[simp] theorem State.withdrawHold_portL : (s.withdrawHold).portL = s.portL := rfl

@[simp] theorem State.silencePorts_pending : (s.silencePorts).pending = s.pending := rfl
@[simp] theorem State.silencePorts_slots : (s.silencePorts).slots = s.slots := rfl
@[simp] theorem State.silencePorts_engine : (s.silencePorts).engine = s.engine := rfl
@[simp] theorem State.silencePorts_arbiter : (s.silencePorts).arbiter = s.arbiter := rfl
@[simp] theorem State.silencePorts_renewal : (s.silencePorts).renewal = s.renewal := rfl
@[simp] theorem State.silencePorts_commit : (s.silencePorts).commit = s.commit := rfl
@[simp] theorem State.silencePorts_time : (s.silencePorts).time = s.time := rfl
@[simp] theorem State.silencePorts_journal : (s.silencePorts).journal = s.journal := rfl
@[simp] theorem State.silencePorts_supply : (s.silencePorts).supply = s.supply := rfl
@[simp] theorem State.silencePorts_queueM : (s.silencePorts).queueM = s.queueM := rfl
@[simp] theorem State.silencePorts_queueL : (s.silencePorts).queueL = s.queueL := rfl

@[simp] theorem State.drain_pending : (s.drain).pending = s.pending := by unfold State.drain; split <;> rfl
@[simp] theorem State.drain_slots : (s.drain).slots = s.slots := by unfold State.drain; split <;> rfl
@[simp] theorem State.drain_engine : (s.drain).engine = s.engine := by unfold State.drain; split <;> rfl
@[simp] theorem State.drain_arbiter : (s.drain).arbiter = s.arbiter := by unfold State.drain; split <;> rfl
@[simp] theorem State.drain_renewal : (s.drain).renewal = s.renewal := by unfold State.drain; split <;> rfl
@[simp] theorem State.drain_commit : (s.drain).commit = s.commit := by unfold State.drain; split <;> rfl
@[simp] theorem State.drain_time : (s.drain).time = s.time := by unfold State.drain; split <;> rfl
@[simp] theorem State.drain_journal : (s.drain).journal = s.journal := by unfold State.drain; split <;> rfl
@[simp] theorem State.drain_queueM : (s.drain).queueM = s.queueM := by unfold State.drain; split <;> rfl
@[simp] theorem State.drain_queueL : (s.drain).queueL = s.queueL := by unfold State.drain; split <;> rfl
@[simp] theorem State.drain_portM : (s.drain).portM = s.portM := by unfold State.drain; split <;> rfl
@[simp] theorem State.drain_portL : (s.drain).portL = s.portL := by unfold State.drain; split <;> rfl

@[simp] theorem State.withPending_slots (q : List Instr) : (s.withPending q).slots = s.slots := rfl
@[simp] theorem State.withPending_engine (q : List Instr) : (s.withPending q).engine = s.engine := rfl
@[simp] theorem State.withPending_arbiter (q : List Instr) : (s.withPending q).arbiter = s.arbiter := rfl
@[simp] theorem State.withPending_renewal (q : List Instr) : (s.withPending q).renewal = s.renewal := rfl
@[simp] theorem State.withPending_commit (q : List Instr) : (s.withPending q).commit = s.commit := rfl
@[simp] theorem State.withPending_time (q : List Instr) : (s.withPending q).time = s.time := rfl
@[simp] theorem State.withPending_journal (q : List Instr) : (s.withPending q).journal = s.journal := rfl
@[simp] theorem State.withPending_supply (q : List Instr) : (s.withPending q).supply = s.supply := rfl
@[simp] theorem State.withPending_queueM (q : List Instr) : (s.withPending q).queueM = s.queueM := rfl
@[simp] theorem State.withPending_queueL (q : List Instr) : (s.withPending q).queueL = s.queueL := rfl
@[simp] theorem State.withPending_portM (q : List Instr) : (s.withPending q).portM = s.portM := rfl
@[simp] theorem State.withPending_portL (q : List Instr) : (s.withPending q).portL = s.portL := rfl


/-! ## What the updates write -/

@[simp] theorem State.port_setPort (p : Port) (r : PortRecord) : (s.setPort p r).port p = r := by cases p <;> rfl
@[simp] theorem State.port_setPort_other (p : Port) (r : PortRecord) : (s.setPort p r).port p.other = s.port p.other := by
  cases p <;> rfl
@[simp] theorem State.queue_setQueue (p : Port) (q : List Demand) : (s.setQueue p q).queue p = q := by cases p <;> rfl
@[simp] theorem State.queue_setQueue_other (p : Port) (q : List Demand) :
    (s.setQueue p q).queue p.other = s.queue p.other := by cases p <;> rfl
@[simp] theorem State.setPort_port (p : Port) : s.setPort p (s.port p) = s := by cases p <;> rfl
@[simp] theorem State.setPort_setPort (p : Port) (a b : PortRecord) : (s.setPort p a).setPort p b = s.setPort p b := by
  cases p <;> rfl
@[simp] theorem State.slot_setSlot (i : Fin 24) (c : Slot) : (s.setSlot i c).slot i = c := by
  simp [State.slot, State.setSlot]

/-- A slot update leaves every other slot alone. -/
theorem State.slot_setSlot_ne {i k : Fin 24} (h : i ≠ k) (c : Slot) : (s.setSlot i c).slot k = s.slot k := by
  have : i.val ≠ k.val := fun e => h (Fin.ext e)
  simp [State.slot, State.setSlot, this]

@[simp] theorem State.setSlot_setSlot (i : Fin 24) (a b : Slot) : (s.setSlot i a).setSlot i b = s.setSlot i b := by
  simp [State.setSlot]
@[simp] theorem State.setPort_slot (p : Port) (r : PortRecord) (i : Fin 24) : (s.setPort p r).slot i = s.slot i := by
  cases p <;> rfl
@[simp] theorem State.complete_slot (p : Port) (st : Status) (b : List Byte) (i : Fin 24) :
    (s.complete p st b).slot i = s.slot i := by simp [State.slot]
@[simp] theorem State.refuse_slot (p : Port) (st : Status) (i : Fin 24) : (s.refuse p st).slot i = s.slot i := by
  simp [State.slot]
@[simp] theorem State.raise_slot (w : PortSet) (d : Demand) (i : Fin 24) : (s.raise w d).slot i = s.slot i := by
  simp [State.slot]
@[simp] theorem State.handOver_slot (w : Write) (r : Requester) (i : Fin 24) : (s.handOver w r).slot i = s.slot i := by
  simp [State.slot]
@[simp] theorem State.setSlot_port (i : Fin 24) (c : Slot) (p : Port) : (s.setSlot i c).port p = s.port p := by cases p <;> rfl
@[simp] theorem State.raise_port (w : PortSet) (d : Demand) (p : Port) : (s.raise w d).port p = s.port p := by
  cases p <;> simp [State.port]
@[simp] theorem State.handOver_port (w : Write) (r : Requester) (p : Port) : (s.handOver w r).port p = s.port p := by
  cases p <;> simp [State.port]

/-- A request that completes: the port holds the reply, and the other port is unchanged (R195). -/
@[simp] theorem State.complete_port (p : Port) (st : Status) (b : List Byte) :
    (s.complete p st b).port p = (s.port p).completed st b := by simp [State.complete]
@[simp] theorem State.complete_port_other (p : Port) (st : Status) (b : List Byte) :
    (s.complete p st b).port p.other = s.port p.other := by simp [State.complete]

@[simp] theorem PortRecord.completed_request (r : PortRecord) (st : Status) (b : List Byte) :
    (r.completed st b).request = none := by dsimp only [PortRecord.completed]; split <;> rfl
@[simp] theorem PortRecord.completed_reply (r : PortRecord) (st : Status) (b : List Byte) :
    (r.completed st b).reply = .reply st b := by dsimp only [PortRecord.completed]; split <;> rfl
@[simp] theorem PortRecord.completed_lastRefusal (r : PortRecord) (st : Status) (b : List Byte) :
    (r.completed st b).lastRefusal = if st.isRefusal then st else r.lastRefusal := by
  dsimp only [PortRecord.completed]; split <;> rfl
@[simp] theorem PortRecord.completed_buffer (r : PortRecord) (st : Status) (b : List Byte) :
    (r.completed st b).buffer = r.buffer := by dsimp only [PortRecord.completed]; split <;> rfl

/-- What a demand does to each queue (R179): the port of each set member takes it by `arrive`. -/
theorem State.raise_queueM (w : PortSet) (d : Demand) :
    (s.raise w d).queueM = if w.m then arrive s.queueM d else s.queueM := by
  unfold State.raise; split <;> split <;> rfl
theorem State.raise_queueL (w : PortSet) (d : Demand) :
    (s.raise w d).queueL = if w.l then arrive s.queueL d else s.queueL := by
  unfold State.raise; split <;> split <;> rfl

/-- A write handed over goes to the queue while it holds fewer than 8 entries, to the place list otherwise, and nowhere where the
controller takes none (R143, R150). -/
theorem State.handOver_journal (w : Write) (r : Requester) :
    (s.handOver w r).journal =
      match s.handing with
      | .queued => { s.journal with queue := s.journal.queue ++ [⟨w, r⟩] }
      | .placed => { s.journal with place := s.journal.place ++ [⟨w, r⟩] }
      | .faulted => s.journal := by
  unfold State.handOver; cases s.handing <;> rfl

/-- The commit start test requests the hold where its three conditions hold and none stands, and does nothing else (R105). -/
theorem State.commitStart_hold :
    s.commitStart.arbiter = s.arbiter ∨
    (s.renewal.state = .armed ∧ s.renewal.activation = true ∧ s.namedPinned = false ∧ s.supply.run = .run ∧
      s.commitStart.arbiter = { s.arbiter with hold := .requested }) := by
  unfold State.commitStart
  split
  · rename_i h; exact .inr ⟨h.1, h.2.2.1, h.2.2.2.1, h.2.2.2.2.1, rfl⟩
  · exact .inl rfl

/-- The drain condition makes FLUSH QUIESCENT and nothing else (R164). -/
theorem State.drain_run : s.drain.supply.run = s.supply.run ∨ (s.supply.run = .flush ∧ s.drain.supply.run = .quiescent) := by
  unfold State.drain; split
  · rename_i h; exact .inr ⟨h.1, rfl⟩
  · exact .inl rfl

/-- Where the arbiter has no grant to make and the run state is not FLUSH, the end of an event changes nothing. -/
theorem State.settle_atRest (h : s.grant = none) (f : s.supply.run ≠ .flush) : s.settle = s := by
  simp [State.settle, State.grants, h, State.drain, f]

end Sys2Proof.Machine
end

