-- ==== Sys2Proof/Laws/Events.lean ====
section
/-! SUPPORT. How an event ends and how a frame is taken: the grants, the drain, the take of a complete frame, a key command granted at
its take. -/

namespace Sys2Proof.Machine

/-! ## The end of an event -/

theorem grants_of_grant_none (n : Nat) {s : State} (h : s.grant = none) : State.grants n s = s := by
  cases n <;> simp [State.grants, h]

theorem drain_of_not_flush {s : State} (h : s.supply.run ≠ .flush) : s.drain = s := by simp [State.drain, h]

/-- An event that leaves the part at rest ends as it is. -/
theorem settle_of_atRest {s : State} (h : s.AtRest) : s.settle = s := by
  simp [State.settle, grants_of_grant_none _ h.1, drain_of_not_flush h.2]

/-- Nothing is granted while an operation occupies the engine (R64). -/
theorem grant_none_of_engine {s : State} (h : s.engine.isSome = true) : s.grant = none := by simp [State.grant, h]

/-- Nothing is granted while the hold is granted (R64). -/
theorem grant_none_of_hold {s : State} (h : s.arbiter.hold = .granted) : s.grant = none := by simp [State.grant, h]

/-- Nothing is granted where no requester waits (R64). -/
theorem grant_none_of_no_requester {s : State} (h1 : s.arbiter.resumed = []) (h2 : s.arbiter.hold = .none)
    (h3 : s.arbiter.waitM = false) (h4 : s.arbiter.waitL = false) (h5 : s.arbiter.checking = none) : s.grant = none := by
  unfold State.grant
  split
  · rfl
  · simp [h1, h2, h3, h4, h5, Arbiter.nextPort]

theorem State.EngineIdle.grant_none {s : State} (h : s.EngineIdle) : s.grant = none :=
  grant_none_of_no_requester h.2.1 h.2.2.1 h.2.2.2.1 h.2.2.2.2.1 h.2.2.2.2.2

/-! ## Handing a write over -/

/-- Where a write handed over goes (R143, R150). -/
theorem handOver_cases (s : State) (w : Write) (r : Requester) :
    (s.handing = .queued ∧ s.journal.queue.length < 8 ∧
      s.handOver w r = { s with journal := { s.journal with queue := s.journal.queue ++ [⟨w, r⟩] } }) ∨
    (s.handing = .placed ∧ ¬ s.journal.queue.length < 8 ∧
      s.handOver w r = { s with journal := { s.journal with place := s.journal.place ++ [⟨w, r⟩] } }) ∨
    (s.handing = .faulted ∧ (s.supply.run = .fault ∨ (s.supply.run = .starting ∧ s.supply.faultMark = true)) ∧
      s.handOver w r = s) := by
  by_cases hf : s.supply.run = .fault ∨ (s.supply.run = .starting ∧ s.supply.faultMark = true)
  · exact .inr (.inr ⟨by simp [State.handing, hf], hf, by simp [State.handOver, State.handing, hf]⟩)
  · by_cases hq : s.journal.queue.length < 8
    · exact .inl ⟨by simp [State.handing, hf, hq], hq, by simp [State.handOver, State.handing, hf, hq]⟩
    · exact .inr (.inl ⟨by simp [State.handing, hf, hq], hq, by simp [State.handOver, State.handing, hf, hq]⟩)

/-- Outside FAULT and STARTING a hand-over is `State.handed`. -/
theorem handOver_eq_handed {s : State} (h1 : s.supply.run ≠ .fault) (h2 : s.supply.run ≠ .starting) (w : Write) (r : Requester) :
    s.handOver w r = s.handed w r := by
  by_cases hq : s.journal.queue.length < 8 <;> simp [State.handOver, State.handing, State.handed, h1, h2, hq]

/-! ## The take of a frame -/

/-- The STOP on a complete frame of the command takes it (R192, R194). -/
theorem atStop_of_holds {s : State} {p : Port} {code : Byte} {is : Byte → Bool} (w : State → State) (h : s.Holds p code)
    (hc : is code = true) : s.atStop p is w = (w (s.frameTaken p)).settle := by
  obtain ⟨a, b, c⟩ := h
  simp [State.atStop, a, b, hc]

theorem State.Holds.framing {s : State} {p : Port} {code : Byte} (h : s.Holds p code) : (s.port p).framing = .write := by
  have := h.1
  simp [PortRecord.frameComplete] at this
  exact this.1.1.1

@[simp] theorem frameTaken_payload (s : State) (p : Port) : (s.frameTaken p).payload p = s.payload p := by cases p <;> rfl

/-- A request completed at the event at which its frame was taken (R194, R195). -/
theorem complete_frameTaken {s : State} {p : Port} {code : Byte} (h : s.Holds p code) (st : Status) (b : List Byte) :
    (s.frameTaken p).complete p st b = s.answered p st b := by
  obtain ⟨_, _, h3⟩ := h
  cases p <;>
    simp_all [State.frameTaken, State.complete, State.setPort, State.port, State.answered, PortRecord.answered, PortRecord.completed,
      PortRecord.taken, PortRecord.idled]

/-- A key command handed to an idle engine is granted at once (R64, R65). -/
theorem grant_handToArbiter {s : State} (p : Port) (q : Request) (h : s.EngineIdle) :
    ((s.frameTaken p).handToArbiter p q).grant = some (State.enter ((s.setPort p ((s.port p).inFlight q)).turnTo p) p) := by
  obtain ⟨h0, h1, h2, h3, h4, h5⟩ := h
  obtain ⟨pe, sl, en, ar, rn, cm, tm, jn, su, qm, ql, pm, pl⟩ := s
  obtain ⟨r, ho, wm, wl, ck, tu, pa⟩ := ar
  simp only at h0 h1 h2 h3 h4 h5
  subst h0 h1 h2 h3 h4 h5
  cases p <;>
    simp [State.handToArbiter, State.frameTaken, State.setPort, State.port, PortRecord.taken, PortRecord.idled, Arbiter.setWaiting,
      State.grant, Arbiter.nextPort, State.grantPort, State.turnTo, PortRecord.inFlight]

/-- The event of a key command on an idle engine, where what it enters leaves nothing to grant (R64). -/
theorem settle_handToArbiter {s t : State} (p : Port) (q : Request) (h : s.EngineIdle)
    (he : State.enter ((s.setPort p ((s.port p).inFlight q)).turnTo p) p = t) (ht : t.AtRest) :
    State.settle ((s.frameTaken p).handToArbiter p q) = t := by
  have hr : ((s.frameTaken p).handToArbiter p q).arbiter.resumed = [] := by
    rw [← h.2.1]; cases p <;> rfl
  simp only [State.settle, hr, List.length_nil, Nat.zero_add]
  rw [show (6 : Nat) = 5 + 1 from rfl, State.grants, grant_handToArbiter p q h]
  simp only [he, grants_of_grant_none _ ht.1, drain_of_not_flush ht.2]

/-- A request in flight refused at its grant (R59, R195). -/
theorem refuse_inFlight {s : State} {p : Port} {code : Byte} (h : s.Holds p code) (q : Request) (e : Status) :
    ((s.setPort p ((s.port p).inFlight q)).turnTo p).refuse p e = (s.answered p e []).turnTo p := by
  have := h.framing
  cases p <;>
    simp [State.refuse, State.complete, State.turnTo, State.setPort, State.port, State.answered, PortRecord.answered,
      PortRecord.inFlight, PortRecord.completed]

end Sys2Proof.Machine
end

