-- ==== Sys2Proof/Laws/Store.lean ====
section
/-! SUPPORT. The laws of the sparse tables that hold the ring and the banks: reading after writing, and the canonical form; and those of the
live map: what an append leaves, and what the scan takes as live. -/

namespace Sys2Proof.Machine

variable {α : Type}

@[simp] theorem cellGet_cellSet_same (k : Nat) (a : α) (l : List (Nat × α)) : cellGet k (cellSet k a l) = some a := by
  induction l with
  | nil => simp [cellSet, cellGet]
  | cons e rest ih =>
    obtain ⟨j, b⟩ := e
    unfold cellSet; split
    · simp [cellGet]
    · split
      · simp [cellGet]
      · rename_i h; simp [cellGet, h, ih]

theorem cellGet_cellSet_ne {k m : Nat} (h : m ≠ k) (a : α) (l : List (Nat × α)) :
    cellGet m (cellSet k a l) = cellGet m l := by
  induction l with
  | nil => simp [cellSet, cellGet, h]
  | cons e rest ih =>
    obtain ⟨j, b⟩ := e
    unfold cellSet; split
    · simp [cellGet, h]
    · split
      · rename_i e; subst e; simp [cellGet, h]
      · simp [cellGet, ih]

theorem cellGet_cellErase_ne {k m : Nat} (h : m ≠ k) (l : List (Nat × α)) : cellGet m (cellErase k l) = cellGet m l := by
  induction l with
  | nil => rfl
  | cons e rest ih =>
    obtain ⟨j, b⟩ := e
    unfold cellErase; split
    · rename_i e; subst e; simp [cellGet, h]
    · simp [cellGet, ih]

theorem risingFrom_cellSet {j k : Nat} (a : α) (l : List (Nat × α)) (hj : j < k) (h : risingFrom j l = true) :
    risingFrom j (cellSet k a l) = true := by
  induction l generalizing j with
  | nil => simp [cellSet, risingFrom, hj]
  | cons e rest ih =>
    obtain ⟨i, b⟩ := e
    simp only [risingFrom, Bool.and_eq_true, decide_eq_true_eq] at h
    unfold cellSet; split
    · rename_i hk; simp [risingFrom, hj, hk, h.2]
    · split
      · rename_i e; subst e; simp [risingFrom, h.1, h.2]
      · rename_i h1 h2; simp [risingFrom, h.1, ih (by omega) h.2]

/-- Writing a table keeps its canonical form. -/
theorem rising_cellSet (k : Nat) (a : α) (l : List (Nat × α)) (h : rising l = true) : rising (cellSet k a l) = true := by
  cases l with
  | nil => simp [cellSet, rising, risingFrom]
  | cons e rest =>
    obtain ⟨i, b⟩ := e
    simp only [rising] at h
    unfold cellSet; split
    · rename_i hk; simp [rising, risingFrom, hk, h]
    · split
      · rename_i e; subst e; simpa [rising] using h
      · simp only [rising]; exact risingFrom_cellSet a rest (by omega) h

theorem risingFrom_mono {i j : Nat} (h : i ≤ j) (l : List (Nat × α)) (hr : risingFrom j l = true) : risingFrom i l = true := by
  cases l with
  | nil => rfl
  | cons e rest =>
    obtain ⟨k, b⟩ := e
    simp only [risingFrom, Bool.and_eq_true, decide_eq_true_eq] at hr ⊢
    exact ⟨by omega, hr.2⟩

theorem risingFrom_cellErase {j : Nat} (k : Nat) (l : List (Nat × α)) (h : risingFrom j l = true) :
    risingFrom j (cellErase k l) = true := by
  induction l generalizing j with
  | nil => rfl
  | cons e rest ih =>
    obtain ⟨i, b⟩ := e
    simp only [risingFrom, Bool.and_eq_true, decide_eq_true_eq] at h
    unfold cellErase; split
    · exact risingFrom_mono (by omega) rest h.2
    · simp [risingFrom, h.1, ih h.2]

/-- Erasing an entry keeps the canonical form. -/
theorem rising_cellErase (k : Nat) (l : List (Nat × α)) (h : rising l = true) : rising (cellErase k l) = true := by
  cases l with
  | nil => rfl
  | cons e rest =>
    obtain ⟨i, b⟩ := e
    simp only [rising] at h
    unfold cellErase; split
    · cases rest with
      | nil => rfl
      | cons f r => obtain ⟨m, c⟩ := f; simp only [risingFrom, Bool.and_eq_true] at h; exact h.2
    · simp only [rising]; exact risingFrom_cellErase k rest h

theorem keysBelow_cellSet {n k : Nat} (hk : k < n) (a : α) (l : List (Nat × α)) (h : keysBelow n l = true) :
    keysBelow n (cellSet k a l) = true := by
  induction l with
  | nil => simp [cellSet, keysBelow, hk]
  | cons e rest ih =>
    obtain ⟨j, b⟩ := e
    simp only [keysBelow, List.all_cons, Bool.and_eq_true, decide_eq_true_eq] at h ih
    unfold cellSet; split
    · simp [keysBelow, hk, h.1]; simpa using h.2
    · split
      · simp [keysBelow, hk]; simpa using h.2
      · simp only [keysBelow, List.all_cons, Bool.and_eq_true, decide_eq_true_eq]; exact ⟨h.1, ih h.2⟩

theorem keysBelow_cellErase {n : Nat} (k : Nat) (l : List (Nat × α)) (h : keysBelow n l = true) :
    keysBelow n (cellErase k l) = true := by
  induction l with
  | nil => rfl
  | cons e rest ih =>
    obtain ⟨j, b⟩ := e
    simp only [keysBelow, List.all_cons, Bool.and_eq_true, decide_eq_true_eq] at h ih
    unfold cellErase; split
    · simpa [keysBelow] using h.2
    · simp only [keysBelow, List.all_cons, Bool.and_eq_true, decide_eq_true_eq]; exact ⟨h.1, ih h.2⟩

/-- A canonical table of which every key reads as in another canonical table is that table. -/
theorem cellGet_of_risingFrom {j k : Nat} (l : List (Nat × α)) (h : risingFrom j l = true) (hk : k ≤ j) : cellGet k l = none := by
  induction l generalizing j with
  | nil => rfl
  | cons e rest ih =>
    obtain ⟨i, b⟩ := e
    simp only [risingFrom, Bool.and_eq_true, decide_eq_true_eq] at h
    have hne : k ≠ i := by omega
    simp [cellGet, hne, ih h.2 (by omega)]

/-! ## The journal's operations keep the canonical form -/

theorem nextPosition_lt {p : Nat} (h : p < 512) : nextPosition p < 512 := by unfold nextPosition; split <;> omega

theorem bankNumber_lt (i : Fin 24) (k : Fin 3) : bankNumber i k < 72 := by
  have := i.isLt; have := k.isLt; unfold bankNumber; omega

theorem Journal.put_canonical (j : Journal) (b : Body) (hp : j.writePosition < 512) (h : j.Canonical) :
    (j.put b).Canonical :=
  ⟨rising_cellSet _ _ _ h.1, keysBelow_cellSet hp _ _ h.2.1, h.2.2.1, h.2.2.2⟩

theorem Journal.spoil_canonical (j : Journal) (hp : j.writePosition < 512) (h : j.Canonical) : j.spoil.Canonical :=
  ⟨rising_cellSet _ _ _ h.1, keysBelow_cellSet hp _ _ h.2.1, h.2.2.1, h.2.2.2⟩

theorem Journal.writeBank_canonical (j : Journal) (i : Fin 24) (k : Fin 3) (g : Nat) (key : Key) (h : j.Canonical) :
    (j.writeBank i k g key).Canonical :=
  ⟨h.1, h.2.1, rising_cellSet _ _ _ h.2.2.1, keysBelow_cellSet (bankNumber_lt i k) _ _ h.2.2.2⟩

theorem Journal.spoilBank_canonical (j : Journal) (i : Fin 24) (k : Fin 3) (h : j.Canonical) : (j.spoilBank i k).Canonical :=
  ⟨h.1, h.2.1, rising_cellSet _ _ _ h.2.2.1, keysBelow_cellSet (bankNumber_lt i k) _ _ h.2.2.2⟩

theorem Journal.eraseBank_canonical (j : Journal) (i : Fin 24) (k : Fin 3) (h : j.Canonical) : (j.eraseBank i k).Canonical :=
  ⟨h.1, h.2.1, rising_cellErase _ _ h.2.2.1, keysBelow_cellErase _ _ h.2.2.2⟩

/-- Every entry of the queue and the place list after freed places are taken stands in one of the two before, in order (R144). -/
theorem refill_append (q place : List Entry) : (refill q place).1 ++ (refill q place).2 = q ++ place := by
  induction place generalizing q with
  | nil => simp [refill]
  | cons e rest ih => unfold refill; split <;> simp [ih]

/-- Freed places are taken: the queue holds at most 8 entries, and a write waits for a place only while it is full (R142, R143). -/
theorem refill_bounds (q place : List Entry) (h : q.length ≤ 8) :
    (refill q place).1.length ≤ 8 ∧ ((refill q place).2 = [] ∨ (refill q place).1.length = 8) := by
  induction place generalizing q with
  | nil => exact ⟨h, .inl rfl⟩
  | cons e rest ih =>
    unfold refill; split
    · exact ih (q ++ [e]) (by simp; omega)
    · exact ⟨h, .inr (by simp; omega)⟩

/-! ## Check values (R139, R140) -/

@[simp] theorem Record.made_lap (lap : BitVec 8) (b : Body) : (Record.made lap b).lap = lap := rfl
@[simp] theorem Record.made_body (lap : BitVec 8) (b : Body) : (Record.made lap b).body = b := rfl
@[simp] theorem Record.made_valid (lap : BitVec 8) (b : Body) : (Record.made lap b).valid = true := by
  simp [Record.valid, Record.made]

@[simp] theorem RingCell.valid_made (lap : BitVec 8) (b : Body) :
    (RingCell.record (.made lap b)).valid = some (.made lap b) := by simp [RingCell.valid]

@[simp] theorem RingCell.valid_spoiled : RingCell.spoiled.valid = none := rfl

/-- A position whose stored check value disagrees holds no record, whatever its other bytes spell (R139). -/
theorem RingCell.valid_of_check_ne {r : Record} (h : r.check ≠ Config.recordCheck r.lap r.body) :
    (RingCell.record r).valid = none := by simp [RingCell.valid, Record.valid, h]

@[simp] theorem BankCell.validFor_made (i j : Fin 24) (g h : Nat) (key : Key) :
    (BankCell.made j h key).validFor i g = (decide (j = i) && decide (h = g)) := by
  simp [BankCell.made, BankCell.validFor]

@[simp] theorem BankCell.validFor_spoiled (i : Fin 24) (g : Nat) : BankCell.spoiled.validFor i g = false := rfl

/-- The scan keeps every record that the controller has made (R139, R152). -/
@[simp] theorem validRecords_made_cons (p : Nat) (lap : BitVec 8) (b : Body) (rest : List (Nat × RingCell)) :
    validRecords ((p, .record (.made lap b)) :: rest) = (p, .made lap b) :: validRecords rest := by simp [validRecords]

@[simp] theorem validRecords_spoiled_cons (p : Nat) (rest : List (Nat × RingCell)) :
    validRecords ((p, .spoiled) :: rest) = validRecords rest := rfl

@[simp] theorem validRecords_nil : validRecords [] = [] := rfl

/-- A record that has been written is read back at its position (R144). -/
theorem Journal.recordAt_put (j : Journal) (b : Body) :
    (j.put b).recordAt j.writePosition = some (.made j.lap b) := by simp [Journal.recordAt, Journal.put]

/-- A spoiled position holds no record (R148). -/
theorem Journal.recordAt_spoil (j : Journal) : j.spoil.recordAt j.writePosition = none := by
  simp [Journal.recordAt, Journal.spoil]

/-- A bank write leaves an image that is valid for its slot and generation, with its key (R140). -/
theorem Journal.validImage_writeBank (j : Journal) (i : Fin 24) (k : Fin 3) (g : Nat) (key : Key) :
    (j.writeBank i k g key).validImage i k g = true ∧ (j.writeBank i k g key).keyAt i k = key := by
  simp [Journal.validImage, Journal.keyAt, Journal.bank, Journal.writeBank, BankCell.made, BankCell.validFor]

/-- A bank whose write failed or was torn holds no valid image (R149, R151). -/
theorem Journal.validImage_spoilBank (j : Journal) (i : Fin 24) (k : Fin 3) (g : Nat) :
    (j.spoilBank i k).validImage i k g = false := by
  simp [Journal.validImage, Journal.bank, Journal.spoilBank]

/-! ## The live map -/

/-- What an insertion holds. -/
theorem mem_insertRising {k m : Nat} {l : List Nat} : m ∈ insertRising k l ↔ m = k ∨ m ∈ l := by
  induction l with
  | nil => simp [insertRising]
  | cons j rest ih =>
    unfold insertRising
    split
    · simp
    · split
      · rename_i h; subst h; simp
      · simp only [List.mem_cons, ih]; exact or_left_comm

/-- What is live once the records that `drop` picks are gone. -/
theorem Journal.mem_without {j : Journal} {drop : Body → Bool} {p : Nat} :
    p ∈ j.without drop ↔ p ∈ j.live ∧ ∀ r, j.recordAt p = some r → drop r.body = false := by
  unfold Journal.without
  rw [List.mem_filter]
  cases h : j.recordAt p <;> simp

/-- A CEILING or FLOOR whose generation a SLOT record no longer names (R147). -/
theorem Body.unnamedBy_iff (i : Fin 24) (o : Option Nat) (m : SlotMeta) (old : Body) :
    old.unnamedBy i m = true ↔ (Body.slot i o m).Unnames old := by
  unfold Body.Unnames
  constructor
  · intro h
    cases old <;> simp [Body.unnamedBy] at h
    · exact ⟨i, o, m, _, rfl, .inl ⟨_, _, by rw [h.1]⟩, h.2⟩
    · exact ⟨i, o, m, _, rfl, .inr ⟨_, _, by rw [h.1]⟩, h.2⟩
  · rintro ⟨_, _, _, g, h, (⟨v, c, rfl⟩ | ⟨v, c, rfl⟩), n⟩ <;> cases h <;> simp [Body.unnamedBy, n]

/-- The records of a commit are those that carry its sequence as their origin (R141). -/
theorem Body.ofCommit_some (b : Body) (q : Nat) : b.ofCommit (some q) = true ↔ b.origin = some q := by
  unfold Body.ofCommit; cases b.origin <;> simp

/-- A commit's record has neither the key of an ARM, STEP or COMMIT_BEGIN record nor is it a SLOT record that unnames one. -/
theorem Body.apart_arm {y : Body} {q r a t o} (h : y.origin = some q) : y.key ≠ (Body.arm r a t o).key ∧ ¬ y.Unnames (.arm r a t o) := by
  constructor
  · cases y <;> simp [key, origin] at h ⊢
  · rintro ⟨_, _, _, _, _, (⟨_, _, e⟩ | ⟨_, _, e⟩), _⟩ <;> cases e

/-- The same of a STEP record. -/
theorem Body.apart_step {y : Body} {q r a} (h : y.origin = some q) : y.key ≠ (Body.step r a).key ∧ ¬ y.Unnames (.step r a) := by
  constructor
  · cases y <;> simp [key, origin] at h ⊢
  · rintro ⟨_, _, _, _, _, (⟨_, _, e⟩ | ⟨_, _, e⟩), _⟩ <;> cases e

/-- The same of a COMMIT_BEGIN record. -/
theorem Body.apart_commitBegin {y : Body} {q r t} (h : y.origin = some q) :
    y.key ≠ (Body.commitBegin r t).key ∧ ¬ y.Unnames (.commitBegin r t) := by
  constructor
  · cases y <;> simp [key, origin] at h ⊢
  · rintro ⟨_, _, _, _, _, (⟨_, _, e⟩ | ⟨_, _, e⟩), _⟩ <;> cases e

/-- The other positions once a record has succeeded: what it makes stale is gone from the live map, and nothing else (R147). -/
theorem Journal.mem_liveAfter {j : Journal} {p n : Nat} (b : Body) (keep : Bool) (h : n ≠ p) :
    n ∈ j.liveAfter p b keep ↔ n ∈ j.live ∧ ∀ r, j.recordAt n = some r → ¬ j.Outdates b r.body := by
  have ins (l : List Nat) : n ∈ insertRising p l ↔ n ∈ l := by rw [mem_insertRising]; simp [h]
  have drops (d : Body → Bool) (hd : ∀ x, d x = true ↔ j.Outdates b x) :
      n ∈ j.without d ↔ n ∈ j.live ∧ ∀ r, j.recordAt n = some r → ¬ j.Outdates b r.body := by
    rw [mem_without]
    refine and_congr_right fun _ => forall_congr' fun r => imp_congr_right fun _ => ?_
    rw [← hd, Bool.not_eq_true]
  have keeps (hd : ∀ x, ¬ j.Outdates b x) :
      n ∈ j.live ↔ n ∈ j.live ∧ ∀ r, j.recordAt n = some r → ¬ j.Outdates b r.body := by simp [hd]
  have plain (hu : ∀ x, ¬ b.Unnames x) (ho : ∀ x, j.Outdates b x ↔ x.ofCommit j.openCommit = b.ofCommit j.openCommit ∧
      (x.key = b.key ∨ b.ofCommit j.openCommit = false ∧ b.Unnames x)) (d : Body → Bool)
      (hd : ∀ x, d x = (decide (x.ofCommit j.openCommit = b.ofCommit j.openCommit) && decide (x.key = b.key))) :
      n ∈ j.without d ↔ n ∈ j.live ∧ ∀ r, j.recordAt n = some r → ¬ j.Outdates b r.body :=
    drops d fun x => by simp [hd, ho, hu]
  cases b with
  | disarm q => simp only [liveAfter]; exact drops _ fun x => by cases x <;> simp [Outdates]
  | commitEnd q =>
    simp only [liveAfter]
    refine drops _ fun x => ?_
    have stale : ((!x.ofCommit (some q)) &&
        (((j.liveBodies.map Prod.snd).filter fun y => y.ofCommit (some q)).any (fun y => decide (y.key = x.key)) ||
        ((j.liveBodies.map Prod.snd).filter fun y => y.ofCommit (some q)).any
          (fun y => match y with | .slot i _ m => x.unnamedBy i m | _ => false))) = true ↔
        x.origin ≠ some q ∧ ∃ e ∈ j.liveBodies, e.2.origin = some q ∧ (e.2.key = x.key ∨ e.2.Unnames x) := by
      have unnames (y : Body) : (match y with | .slot i _ m => x.unnamedBy i m | _ => false) = true ↔ y.Unnames x := by
        cases y with
        | slot i o m => exact Body.unnamedBy_iff i o m x
        | _ => simp [Body.Unnames]
      simp only [Bool.and_eq_true, Bool.or_eq_true, Bool.not_eq_true', List.any_eq_true, List.mem_filter, List.mem_map, decide_eq_true_eq,
        ← Bool.not_eq_true, Body.ofCommit_some, unnames]
      refine and_congr_right fun _ => ⟨?_, ?_⟩
      · rintro (⟨_, ⟨⟨e, he, rfl⟩, ho⟩, k⟩ | ⟨_, ⟨⟨e, he, rfl⟩, ho⟩, k⟩)
        · exact ⟨e, he, ho, .inl k⟩
        · exact ⟨e, he, ho, .inr k⟩
      · rintro ⟨e, he, ho, k | k⟩
        · exact .inl ⟨_, ⟨⟨e, he, rfl⟩, ho⟩, k⟩
        · exact .inr ⟨_, ⟨⟨e, he, rfl⟩, ho⟩, k⟩
    have none_ (hx : ∀ y : Body, y.origin = some q → y.key ≠ x.key ∧ ¬ y.Unnames x) :
        ¬ (x.origin ≠ some q ∧ ∃ e ∈ j.liveBodies, e.2.origin = some q ∧ (e.2.key = x.key ∨ e.2.Unnames x)) :=
      fun ⟨_, e, _, ho, k⟩ => k.elim (hx e.2 ho).1 (hx e.2 ho).2
    cases x with
    | arm r a t o => have := none_ fun y hy => Body.apart_arm hy; simp only [Outdates, this]; simp
    | step r a => have := none_ fun y hy => Body.apart_step hy; simp only [Outdates, this]; simp
    | commitBegin r t => have := none_ fun y hy => Body.apart_commitBegin hy; simp only [Outdates, this]; simp
    | _ => exact stale.trans (by simp [Outdates])
  | commitBegin q t => simp only [liveAfter, ins]; exact keeps fun _ => id
  | arm q a t o => simp only [liveAfter, ins]; exact keeps fun _ => id
  | step q a => simp only [liveAfter, apply_ite (n ∈ ·), ins, ite_self]; exact keeps fun _ => id
  | slot i o m =>
    simp only [liveAfter, apply_ite (n ∈ ·), ins, ite_self]
    refine drops _ fun x => ?_
    have u := Body.unnamedBy_iff i o m x
    cases hx : x.ofCommit j.openCommit <;> cases hm : (Body.slot i o m).ofCommit j.openCommit <;> simp [Outdates, hx, hm, u]
  | ceiling i g v o =>
    simp only [liveAfter, apply_ite (n ∈ ·), ins, ite_self]; exact plain (by simp [Body.Unnames]) (fun _ => Iff.rfl) _ (by simp)
  | floor i g v o =>
    simp only [liveAfter, apply_ite (n ∈ ·), ins, ite_self]; exact plain (by simp [Body.Unnames]) (fun _ => Iff.rfl) _ (by simp)
  | time v =>
    simp only [liveAfter, apply_ite (n ∈ ·), ins, ite_self]; exact plain (by simp [Body.Unnames]) (fun _ => Iff.rfl) _ (by simp)
  | lifecycle l c o =>
    simp only [liveAfter, apply_ite (n ∈ ·), ins, ite_self]; exact plain (by simp [Body.Unnames]) (fun _ => Iff.rfl) _ (by simp)

/-- What an append that succeeds leaves of the journal (R146, R147). -/
theorem Journal.appended_stands (j : Journal) (keep : Bool) (b : Body) : j.AppendStands keep b (j.appended b keep) := by
  refine ⟨cellGet_cellSet_same .., fun n h => cellGet_cellSet_ne h .., rfl, rfl, ?_, ?_, fun n h => ?_⟩
  · intro h
    show (j.liveAfter _ b keep).contains _ = true
    cases b <;> simp_all [Lives, liveAfter, mem_insertRising]
  · intro h
    show _ → (j.liveAfter _ b keep).contains _ = false
    unfold isLive
    simp only [List.contains_eq_mem, decide_eq_false_iff_not]
    have base (d : Body → Bool) (l : List Nat) (c : Prop) [Decidable c] (hc : ¬ c) :
        j.writePosition ∉ j.live → j.writePosition ∉ if c then l else j.without d := by
      rw [if_neg hc]; exact fun hp m => hp (mem_without.1 m).1
    cases b with
    | disarm | commitEnd => simp only [liveAfter]; exact fun hp m => hp (mem_without.1 m).1
    | arm | commitBegin => exact absurd trivial h
    | step => simp only [Lives] at h; simp [liveAfter, h]
    | _ => exact base _ _ _ fun c => h (by simpa [Lives] using c)
  · show (j.liveAfter _ b keep).contains n = true ↔ j.live.contains n = true ∧ _
    simp only [List.contains_eq_mem, decide_eq_true_eq]
    exact mem_liveAfter b keep h

/-- The records that the scan takes as live are those of the table of R141. -/
theorem Scan.live_iff (c : Scan) (e : Placed) : e ∈ c.records ∧ liveAtScan c.newest c.sequence c.records e = true ↔ c.Live e := by
  have slot (i : Fin 24) (g : Nat) : (latestSlot c.newest c.sequence c.records i).any (·.names g) = true ↔
      ∃ k o m, c.base (.slot i) = some (.slot k o m) ∧ m.names g = true := by
    unfold latestSlot Scan.base Scan.newestBase
    rcases latest c.newest (fun b => decide (b.key = .slot i) && !b.ofCommit c.sequence) c.records with _ | ⟨p, l, b, k⟩
    · simp
    · cases b with
      | slot k o m =>
        exact ⟨fun h => ⟨k, o, m, rfl, h⟩, fun ⟨_, _, _, h, n⟩ => by cases h; exact n⟩
      | _ => simp
  have newest : newestOfKey c.newest c.sequence c.records e = true ↔ ¬ ∃ x ∈ c.records, rank c.newest e < rank c.newest x ∧
      x.2.body.key = e.2.body.key ∧ x.2.body.ofCommit c.sequence = e.2.body.ofCommit c.sequence := by
    unfold newestOfKey anyNewer
    rw [Bool.not_eq_true', ← Bool.not_eq_true, List.any_eq_true]
    refine not_congr ⟨fun ⟨x, hx, h⟩ => ⟨x, hx, ?_⟩, fun ⟨x, hx, h⟩ => ⟨x, hx, ?_⟩⟩
    · simpa [and_comm, and_left_comm] using h
    · simpa [and_comm, and_left_comm] using h
  have stands (x : Placed) (q : Nat) (a t o) (h : x.2.body = .arm q a t o) : armStands c.newest c.records x = true ↔
      ¬ ∃ y ∈ c.records, rank c.newest x < rank c.newest y ∧ (y.2.body = .disarm q ∨ y.2.body = .commitEnd q) := by
    unfold armStands anyNewer
    rw [h]
    simp only [Bool.not_eq_true', ← Bool.not_eq_true, List.any_eq_true]
    refine not_congr ⟨fun ⟨y, hy, h⟩ => ⟨y, hy, ?_⟩, fun ⟨y, hy, h⟩ => ⟨y, hy, ?_⟩⟩
    · simpa [and_comm] using h
    · simpa [and_comm] using h
  unfold liveAtScan Scan.Live
  rw [Bool.and_eq_true, newest]
  refine and_congr_right fun _ => and_congr_right fun _ => ?_
  obtain ⟨p, l, b, k⟩ := e
  cases b with
  | arm q a t o => exact stands _ q a t o rfl
  | step q a =>
    simp only [List.any_eq_true, Bool.and_eq_true]
    refine exists_congr fun x => and_congr_right fun _ => ⟨?_, ?_⟩
    · intro ⟨h, g⟩
      cases hb : x.2.body with
      | arm r n t o =>
        simp only [hb, decide_eq_true_eq] at h; subst h
        exact ⟨⟨n, t, o, rfl⟩, (stands x _ n t o hb).1 g⟩
      | _ => simp [hb] at h
    · rintro ⟨⟨n, t, o, hb⟩, g⟩
      exact ⟨by simp [hb], (stands x q n t o hb).2 g⟩
  | ceiling i g v o => rw [Bool.or_eq_true, slot]
  | floor i g v o => rw [Bool.or_eq_true, slot]
  | _ => simp

end Sys2Proof.Machine
end

