-- ==== Sys2Proof/WellFormed.lean ====
section
/-! DEFINITION. Which commands are well formed. Ports, bytes and 7-bit addresses have no ill-formed value; a slot
index is 0 to 23 (R1). The fields of a command frame are bytes in a port's buffer and are checked by the part itself
(R202), not here. -/

namespace Sys2Proof

/-- A deadline event names a slot of the table (R1); every other command has no operand that can be out of range. -/
def Instr.wellFormed : Instr → Bool
  | .lifeWarning slot => slot < 24
  | .expiry slot => slot < 24
  | .graceEnd slot => slot < 24
  | .pinLapse slot => slot < 24
  | .makeTag _ => true
  | .checkTag _ => true
  | .pin _ => true
  | .unpin _ => true
  | .slotStatus _ => true
  | .partStatus _ => true
  | .readDemand _ => true
  | .batchOpen _ => true
  | .batchStep _ => true
  | .batchClose _ => true
  | .batchResult _ => true
  | .activate _ => true
  | .cancel _ => true
  | .unknownCommand _ => true
  | .frameDiscard _ => true
  | .readTransfer _ _ => true
  | .stretchTimeout _ => true
  | .busTimeout _ => true
  | .issue => true
  | .tagComparison => true
  | .writeComplete => true
  | .writeFailure => true
  | .carryForward => true
  | .tick => true
  | .secondBeat => true
  | .stagingWindowExpiry => true
  | .scheduledActivation => true
  | .authenticatorCheck => true
  | .unwrap => true
  | .pfwnAssert => true
  | .pfwnRelease => true
  | .rstnLow _ => true
  | .supplyLoss _ => true
  | .rstnRelease _ _ => true
  | .supplyReturn _ _ => true
  | .writeTransfer _ _ => true
  | .writeByte _ _ => true

end Sys2Proof
end

