-- ==== Sys2Proof/Tests/Slice0.lean ====
section
/-! SUPPORT. Tests of single steps, with expected results taken from the manual (the rule or worked case stands in each comment), and
for each statement with hypotheses a state and operands that meet them, at the boundaries of its clauses. -/

open Sys2Proof Sys2Proof.Machine

section

-- One thread at a time: the many small kernel evaluations below would otherwise each hold a thread of their own.
set_option Elab.async false

/-! ## States -/

/-- Slot 0 with F0 = P = 41 (R3). -/
def tSlot0 : Slot :=
  { role := .renew, userMap := .none, notifyMap := .both, policy := some .renewal, pin := none,
    current := some ⟨1, .live, 0, none, .floor 41 41, 0, false, false⟩, next := none, prior := none, wait := none }

/-- An ISSUE slot with S = 100, Kw = 1, Wl = 20, pin ticks 20, CURRENT generation 4 with L = 120 and the counters given. -/
def tIssue (n c l : Nat) (st : CellState) : Slot :=
  { role := .issue, userMap := .both, notifyMap := .both, policy := some ⟨100, 1, 20, 0, 20, .carryOn⟩, pin := none,
    current := some ⟨4, st, 0, some 120, .issue n c l, 1, false, false⟩, next := none, prior := none, wait := none }

/-- An ACCEPT slot with S = 64, G = 300, CURRENT generation 8 with F = 570 and P = 512, PRIOR generation 7 with F = 900, P = 880 and
Ge = 350. -/
def tAccept : Slot :=
  { role := .accept, userMap := .both, notifyMap := .both, policy := some ⟨64, 0, 100, 300, 20, .carryOn⟩, pin := none,
    current := some ⟨8, .live, 50, some 2000, .floor 570 512, 0, false, false⟩, next := none,
    prior := some ⟨7, 0, 900, 880, 350, 2⟩, wait := none }

/-- A FACTORY part in RUN with T = 100 and Tb = 164: ISSUE slot 5 with n = C = 3000, ACCEPT slot 9, the other slots EMPTY. Its live
map is empty, so that no test waits on the opaque check values of a ring. -/
def tRun : State :=
  { State.reset with
    slots := ((State.reset.slots.set 0 tSlot0).set 5 (tIssue 3000 3000 LIMIT .live)).set 9 tAccept
    supply := { State.reset.supply with run := .run, rstnLow := false }
    time := ⟨100, 164, 0, none, false, .running, .running⟩
    journal := { State.reset.journal with writePosition := 4 } }

/-- Another run state. -/
def tIn (r : RunState) (s : State) : State := { s with supply := { s.supply with run := r } }

/-- Another life-cycle state. -/
def tLife (l : LifeCycle) (s : State) : State := { s with supply := { s.supply with lifeCycle := l } }

/-- Another part time. -/
def tAt (t : Nat) (s : State) : State := { s with time := { s.time with t := t } }

/-- The queue of the journal controller as given. -/
def tQueue (q : List Entry) (s : State) : State := { s with journal := { s.journal with queue := q } }

/-- The renewal engine as given. -/
def tRenew (r : Renewal) (s : State) : State := { s with renewal := r }

/-- The key engine as given. -/
def tEngine (e : EngineOp) (s : State) : State := { s with engine := some e }

/-- Slot `i` as given. -/
def tSlot (i : Fin 24) (c : Slot) (s : State) : State := s.setSlot i c

/-- A complete frame, not yet closed, at port M (R190, R192). -/
def tFrame (code : Byte) (payload : List Byte) (s : State) : State :=
  s.setPort .M { s.portM with
    framing := .write, busTimer := .running, latch := false, phase := .length, byteCount := 0,
    buffer := ⟨some 0x94, some code, some (BitVec.ofNat 8 payload.length), payload⟩ }

/-- The state after a command. -/
def tAfter (c : Instr) (s : State) : State := match exec c s with | .next t => t | _ => s

/-- Batch 42 in a state of the renewal engine, naming slots 5 and 9 once its steps are applied. -/
def tBatch (st : RenewalState) : Renewal :=
  { Renewal.idle with
    state := st, header := some ⟨42, some 2, some 0, [0, 0, 0, 42, 2, 0, 0]⟩
    applied := [⟨0, .clear 5⟩, ⟨1, .clear 9⟩], result := ⟨41, .done, [.applied]⟩, lastCommitted := 41 }

/-- Batch 42 in CHECKING at a stage. -/
def tChecking (g : CheckStage) : Renewal :=
  { tBatch .checking with checking := some g, result := ⟨42, .checking, [.applied]⟩ }

/-- The step record CLEAR of slot 5 with index 0 (chapter 11: index, kind 03h, flags bit 0, slot). -/
def tClear5 : StepRecord := ⟨0, false, .clear 5, [0, 3, 1, 5]⟩

/-- A pin of port M on slot 5. -/
def tPinned (s : State) : State := s.setSlot 5 { s.slot 5 with pin := some ⟨.M, 4, 120⟩ }

/-! ## Well-formedness and the table's words -/

/-- Slot indexes are 0 to 23 (R1); each deadline event refuses 24. -/
theorem test_wellFormed_refuses_slot_24 :
    Instr.wellFormed (.lifeWarning 24) = false ∧ Instr.wellFormed (.expiry 24) = false ∧
    Instr.wellFormed (.graceEnd 24) = false ∧ Instr.wellFormed (.pinLapse 24) = false := by decide

theorem test_wellFormed_accepts_slot_23 :
    Instr.wellFormed (.lifeWarning 23) = true ∧ Instr.wellFormed (.expiry 23) = true ∧
    Instr.wellFormed (.graceEnd 23) = true ∧ Instr.wellFormed (.pinLapse 23) = true ∧
    Instr.wellFormed (.makeTag .L) = true := by decide

/-- No row of the table gives bits, so no word spells a command. -/
theorem test_no_word_spells_a_command : decodeTableWord 16 0x10 = none ∧ decodeTableWord 8 0 = none := by decide

/-! ## Key commands -/

/-- Chapter 2: with n = C = 3000 and S = 100, v = 3001 reserves C' = 3100 and waits. -/
theorem test_make_tag_reserves :
    let t := tAfter (.makeTag .M) (tFrame 0x10 [5, 0] tRun)
    t.journal.queue = [⟨.append (.ceiling 5 4 3100 none), .engine 5⟩] ∧
    (t.slot 5).wait = some ⟨.ceiling 4 3100, .M, []⟩ ∧ t.portM.reply = .notReady := by decide +kernel

/-- R202, chapter 11: an expected generation of 0 is BAD_FIELD. -/
theorem test_make_tag_generation_0 :
    (tAfter (.makeTag .M) (tFrame 0x10 [5, 1, 0, 0] tRun)).portM.reply = .reply .badField [] := by decide +kernel

/-- R53: with P = 512 and S = 64, the edge that a counter of 600 is compared against is 576. -/
theorem test_check_tag_edge :
    (tAfter (.checkTag .M) (tFrame 0x11 [9, 0, 8, 0, 0, 0x02, 0x58, 0, 0, 0, 0, 0, 0, 0, 7] tRun)).engine =
      some (.compare .M 9 8 600 7 .current 0 576) := by decide +kernel

/-- R37: a counter equal to F = 570 is REPLAYED. -/
theorem test_check_tag_replayed :
    (tAfter (.checkTag .M) (tFrame 0x11 [9, 0, 8, 0, 0, 0x02, 0x3A, 0, 0, 0, 0, 0, 0, 0, 7] tRun)).portM.reply =
      .reply .replayed [] := by decide +kernel

/-- R16, chapter 11: the reply carries generation 4 and the pin end 120 in 5 bytes. -/
theorem test_pin_reply :
    (tAfter (.pin .M) (tFrame 0x12 [5] tRun)).portM.reply = .reply .ok [0, 4, 0, 0, 0, 0, 120] := by decide +kernel

/-- R18: no pin, NOT_PINNED. -/
theorem test_unpin_not_pinned :
    (tAfter (.unpin .M) (tFrame 0x13 [5] tRun)).portM.lastRefusal = .notPinned := by decide +kernel

/-! ## Status commands -/

/-- Chapter 11: SLOT_STATUS of an EMPTY slot. -/
theorem test_slot_status_empty :
    (tAfter (.slotStatus .M) (tFrame 0x20 [10] tRun)).portM.reply = .reply .ok [10, 0, 0, 0, 0] := by decide +kernel

/-- Chapter 11: PART_STATUS with F0 = 41, T = 100, in FACTORY, RUN and IDLE. -/
theorem test_part_status :
    (tAfter (.partStatus .M) (tFrame 0x21 [] tRun)).portM.reply =
      .reply .ok [0, 1, 0, 0, 0, 100, 0, 0, 1, 0, 0, 0, 41, 0, 0] := by decide +kernel

/-- R182, chapter 11: RESTARTED with T stamp 100, and no entry left. -/
theorem test_read_demand :
    let t := tAfter (.readDemand .M) (tFrame 0x22 [] { tRun with queueM := [⟨.restarted, none, none, none, 100⟩] })
    t.portM.reply = .reply .ok [0, 9, 0, 0, 0, 0, 100] ∧ t.attention .M = false := by decide +kernel

/-- R180: the 16th entry is QUEUE_FULL. -/
theorem test_sixteenth_entry_is_queue_full :
    (arrive (List.replicate 15 ⟨.restarted, none, none, none, 0⟩) ⟨.batchDone, none, none, some 3, 9⟩).getLast? =
      some ⟨.queueFull, none, none, none, 9⟩ := by decide

/-- R194: a command byte that names no command. -/
theorem test_unknown_command :
    (tAfter (.unknownCommand .M) (tFrame 0x14 [1] tRun)).portM.reply = .reply .unknownCommand [] := by decide +kernel

/-! ## Batch commands -/

/-- R74: batch 42 with two steps opens from IDLE. -/
theorem test_batch_open :
    let t := tAfter (.batchOpen .M) (tFrame 0x30 [0, 0, 0, 42, 2, 0, 0] tRun)
    t.renewal.state = .staging ∧ t.renewal.sequence = 42 ∧ t.portM.reply = .reply .ok [] := by decide +kernel

/-- R76: a step that names a slot already named, DUPLICATE_SLOT. -/
theorem test_batch_step_duplicate :
    (tAfter (.batchStep .M) (tFrame 0x31 [1, 3, 1, 5] (tRenew { tBatch .staging with buffer := [tClear5] } tRun))).portM.reply =
      .reply .duplicateSlot [] := by decide +kernel

/-- R77: one step held of two, STEP_COUNT. -/
theorem test_batch_close_count :
    (tAfter (.batchClose .M) (tFrame 0x32 [0, 0, 0, 0, 0, 0, 0, 1]
      (tRenew { tBatch .staging with buffer := [tClear5] } tRun))).portM.reply = .reply .stepCount [] := by decide +kernel

/-- R93, chapter 11: batch 42 ARMED, its steps APPLIED, DROPPED GRACE, APPLIED as in the worked sequence of chapter 4. -/
theorem test_batch_result :
    (tAfter (.batchResult .M) (tFrame 0x33 []
      (tRenew { tBatch .armed with result := ⟨42, .armed, [.applied, .dropped .grace, .applied]⟩ } tRun))).portM.reply =
      .reply .ok [0, 0, 0, 42, 2, 0, 3, 0x00, 0x17, 0x00] := by decide +kernel

/-- R103, R106: ACTIVATE with a named slot pinned, DEFERRED with the flag set. -/
theorem test_activate_deferred :
    let t := tAfter (.activate .M) (tFrame 0x34 [0, 0, 0, 42] (tPinned (tRenew (tBatch .armed) tRun)))
    t.portM.reply = .reply .deferred [] ∧ t.renewal.activation = true ∧ t.arbiter.hold = .none := by decide +kernel

/-- R94: CANCEL of another sequence, WRONG_BATCH. -/
theorem test_cancel_wrong_batch :
    (tAfter (.cancel .M) (tFrame 0x35 [0, 0, 0, 43] (tRenew (tBatch .armed) tRun))).portM.reply =
      .reply .wrongBatch [] := by decide +kernel

/-! ## The bus -/

/-- Chapter 10: the address 4Ah with the write bit is acknowledged, and the address byte is 94h. -/
theorem test_write_transfer :
    let t := tAfter (.writeTransfer .M 0x4A) tRun
    t.portM.framing = .write ∧ t.portM.answer = some .ack ∧ t.portM.buffer.address = some 0x94 := by decide +kernel

/-- R190: a length byte of 225 is not acknowledged. -/
theorem test_length_byte_225 :
    let t := tAfter (.writeByte .M 225) (tAfter (.writeByte .M 0x10) (tAfter (.writeTransfer .M 0x4A) tRun))
    t.portM.answer = some .nack ∧ t.portM.latch = true := by decide +kernel

/-- R196: with no reply, NO_REPLY and m = 0 are sent, then FFh. -/
theorem test_read_transfer_no_reply :
    let t := tAfter (.readTransfer .M 0x4A) tRun
    t.portM.sending = [0x03, 0x00] ∧ t.portM.sends 1 = some 0x00 ∧ t.portM.sends 2 = some 0xFF := by decide +kernel

/-- R197: a read of a reply that is not ready stretches, and at 20 ms sends PENDING. -/
theorem test_stretch :
    let t := tAfter (.readTransfer .M 0x4A) (tAfter (.makeTag .M) (tFrame 0x10 [5, 0] tRun))
    t.portM.framing = .stretch ∧ (tAfter (.stretchTimeout .M) t).portM.sending = [0x01, 0x00] := by decide +kernel

/-- R198: a bus timeout drops a frame, complete or not; R192: a STOP with payload bytes missing discards it. -/
theorem test_dropped_frames :
    (tAfter (.busTimeout .M) (tFrame 0x10 [5, 0] tRun)).portM.reply = .reply .badLength [] ∧
    (tAfter (.frameDiscard .M) (tRun.setPort .M { (tFrame 0x10 [5] tRun).portM with byteCount := 1 })).portM.lastRefusal =
      .badLength := by decide +kernel

/-! ## Part time, deadlines -/

/-- R124 case 4: at T = Tb with a checkpoint in flight the tick is deferred. -/
theorem test_tick_deferred :
    let s := tAt 164 { tRun with time := { tRun.time with checkpoint := some 228 } }
    (tAfter .tick s).time.deferred = true ∧ (tAfter .tick s).time.t = 164 := by decide +kernel

/-- R126: the tick that makes Tb − T = 32 hands over TIME T + 64. -/
theorem test_tick_checkpoint :
    (tAfter .tick (tAt 131 tRun)).journal.queue = [⟨.append (.time 196), .time⟩] := by decide +kernel

/-- R131, R133: the tick to T = 120 meets the life warning and the expiry of slot 5, in that order. -/
theorem test_tick_raises_its_demands :
    (tAfter .tick (tAt 119 tRun)).queueL = [⟨.lifeLow, some 5, some 4, none, 120⟩, ⟨.expired, some 5, some 4, none, 120⟩] := by
  decide +kernel

/-- R146: the append at position 511 moves the write position to 0 with the next lap count. -/
theorem test_append_ends_the_lap :
    let s := tQueue [⟨.append (.time 228), .time⟩] { tRun with time := { tRun.time with checkpoint := some 228 } }
    let t := tAfter .writeComplete { s with journal := { s.journal with writePosition := 511, lap := 7 } }
    t.journal.writePosition = 0 ∧ t.journal.lap = 8 ∧ t.journal.live = [511] := by decide +kernel

/-- R78: the beat that brings the count to 120 drops the batch; that to 119 does not. -/
theorem test_staging_window :
    (tAfter .secondBeat (tRenew { tBatch .staging with windowCount := 119 } tRun)).renewal.result =
      ⟨42, .refused .timeout, []⟩ ∧
    (tAfter .secondBeat (tRenew { tBatch .staging with windowCount := 118 } tRun)).renewal.state = .staging := by decide +kernel

/-- R133: with A = 0, L = 120 and Wl = 20 the warning is due at T = 100. -/
theorem test_life_warning :
    (tAfter (.lifeWarning 5) tRun).queueL = [⟨.lifeLow, some 5, some 4, none, 100⟩] ∧
    (tAfter (.lifeWarning 5) (tAt 99 tRun)).queueL = [] := by decide +kernel

/-- R132: the expiry at T = 120. -/
theorem test_expiry :
    ((tAfter (.expiry 5) (tAt 120 tRun)).slot 5).current.map (·.state) = some .expired ∧
    ((tAfter (.expiry 5) (tAt 119 tRun)).slot 5).current.map (·.state) = some .live := by decide +kernel

/-- R134: the grace end at Ge = 350. -/
theorem test_grace_end :
    ((tAfter (.graceEnd 9) (tAt 350 tRun)).slot 9).prior = none ∧
    ((tAfter (.graceEnd 9) (tAt 349 tRun)).slot 9).prior.isSome = true := by decide +kernel

/-- R19: the lapse at the pin end raises PIN_LAPSED to the holder alone. -/
theorem test_pin_lapse :
    let t := tAfter (.pinLapse 5) (tAt 120 (tPinned tRun))
    (t.slot 5).pin = none ∧ t.queueM = [⟨.pinLapsed, some 5, some 4, none, 120⟩] ∧ t.queueL = [] := by decide +kernel

/-- R104: at the activation tick the flag of an armed batch is set. -/
theorem test_scheduled_activation :
    (tAfter .scheduledActivation (tPinned (tRenew { tBatch .armed with activationTick := some 100 } tRun))).renewal.activation =
      true := by decide +kernel

/-! ## Engine events and writes -/

/-- R50: the ISSUE of value 3001 frees the engine and completes the request. -/
theorem test_issue_frees_the_engine :
    let t := tAfter .issue (tEngine (.issue .M 5 4 3001 false 1) (tFrame 0x10 [5, 0] tRun))
    t.engine = none ∧ t.portM.request = none := ⟨rfl, rfl⟩

/-- Chapter 2, worked case: P = 1300 with S = 256 restores F = 1555. -/
theorem test_restored_floor :
    (scanRing [(0, .record (.made 0 (.floor 9 8 1300 none)))]).floors 9 8 256 = (1555, 1300) := by
  simp only [scanRing, validRecords_made_cons, validRecords_nil]
  decide +kernel

/-- R27: at the completion of CEILING 3100, C takes 3100 and the request issues 3001. -/
theorem test_ceiling_completes :
    let t := tAfter .writeComplete (tAfter (.makeTag .M) (tFrame 0x10 [5, 0] tRun))
    (t.slot 5).current.map (·.counters) = some (.issue 3001 3100 LIMIT) ∧ (t.slot 5).wait = none ∧
    t.engine = some (.issue .M 5 4 3001 false 1) := by decide +kernel

/-- A TIME append in service at position `p`, with the record of position 0 live where `live` says. -/
def tCopy (p : Nat) (live : List Nat) : State :=
  tQueue [⟨.append (.time 164), .time⟩] { tRun with journal := { tRun.journal with writePosition := p, live := live } }

theorem tCopy_queue (p : Nat) (live : List Nat) : (tCopy p live).journal.queue = [⟨.append (.time 164), .time⟩] := rfl

/-- At position 511 the next position is 0, whose live record must be copied first (R146). -/
theorem tCopy_toCopy : (tCopy 511 [0]).journal.toCopy = some (.made 0 (.lifecycle .factory 0 none)) := by
  have h : (tCopy 511 [0]).journal.recordAt 0 = some (.made 0 (.lifecycle .factory 0 none)) := by
    rw [Journal.recordAt, show cellGet 0 (tCopy 511 [0]).journal.ring = some (.record (.made 0 (.lifecycle .factory 0 none))) from rfl]
    simp
  rw [Journal.toCopy, if_pos (by decide), show nextPosition (tCopy 511 [0]).journal.writePosition = 0 from rfl, h]

/-- R148: the first failure spoils position 4, and the record is tried at position 5. -/
theorem test_first_failure :
    let t := tAfter .writeFailure (tQueue [⟨.append (.time 164), .time⟩] tRun)
    cellGet 4 t.journal.ring = some .spoiled ∧ t.journal.writePosition = 5 ∧ t.journal.failures = 1 := by decide +kernel

/-- R146: an append at position 511 copies the live record of position 0 first; the lap count rises as it wraps. -/
theorem test_carry_forward_wraps :
    let t := tAfter .carryForward (tCopy 511 [0])
    cellGet 511 t.journal.ring = some (.record (.made 0 (.lifecycle .factory 0 none))) ∧ t.journal.writePosition = 0 ∧
    t.journal.lap = 1 := by
  simp only [tAfter, exec, execCarryForward, tCopy_queue, tCopy_toCopy]
  exact ⟨rfl, rfl, rfl⟩

/-! ## Checking -/

/-- R81: an authenticator check made with slot 0 not LIVE is a mismatch, BAD_AUTH. -/
theorem test_authenticator_mismatch :
    let s := tEngine (.check true (.authenticator 42 [] 0) none) (tRenew (tChecking .authenticator) tRun)
    (tAfter .authenticatorCheck s).renewal.result = ⟨42, .refused .badAuth, [.applied]⟩ := by decide +kernel

/-- R86: a bad unwrap of a required step ends the batch with STEP_FAILED, WRAP. -/
theorem test_unwrap_bad :
    let s := tEngine (.check true (.unwrap 0 5 5 0) none)
      (tRenew { tChecking (.unwrap 0) with buffer := [⟨0, true, .install 5 5 0 none none none none, []⟩] } tRun)
    (tAfter .unwrap s).renewal.result.outcome = .refused (.stepFailed 0 .wrap) := by decide +kernel

/-! ## Supply -/

/-- R163, R164: with nothing to drain, PFWN takes the part from RUN to QUIESCENT, and its release back to RUN. -/
theorem test_power_fail_warning :
    (tAfter .pfwnAssert tRun).supply.run = .quiescent ∧
    (tAfter .pfwnRelease (tAfter .pfwnAssert tRun)).supply.run = .run := by decide +kernel

/-- R151: an abort that tears the append leaves the position spoiled. -/
theorem test_abort_tears_the_append :
    let s := tQueue [⟨.append (.time 164), .time⟩] tRun
    cellGet 4 (tAfter (.rstnLow .torn) s).journal.ring = some .spoiled ∧
    cellGet 4 (tAfter (.supplyLoss .notBegun) s).journal.ring = none := by decide +kernel

/-- A ring with a LIFECYCLE and a TIME record alone, and further records. -/
def tStore (l : LifeCycle) (more : List (Nat × RingCell)) : List (Nat × RingCell) :=
  (0, .record (.made 0 (.lifecycle l 0 none))) :: (1, .record (.made 0 (.time 100))) :: more

/-- A part that an abort has left, RSTN low, with PFWN as given. -/
def tAborted (ring : List (Nat × RingCell)) (warning : Bool) : State :=
  .aborted [] ring [] { State.reset.supply with warning := warning }

/-- R171, R186, R189: start-up ends in RUN at the T of the TIME record; RESTARTED is raised; ADRM high gives address 4Bh. -/
theorem test_start_up :
    let t := tAfter (.rstnRelease true false) (tAborted (tStore .factory []) false)
    t.supply.run = .run ∧ t.time.t = 100 ∧ t.portM.address = 0x4B ∧ t.queueM = [⟨.restarted, none, none, none, 100⟩] := by
  have h : validRecords (tStore .factory []) = [(0, .made 0 (.lifecycle .factory 0 none)), (1, .made 0 (.time 100))] := by
    simp [tStore]
  simp only [tAfter, exec, execRstnRelease, State.beginStartup, State.startUp, Journal.scanned, tAborted, State.aborted, scanRing, h]
  decide +kernel

/-! ## Witnesses: hypotheses met, statement by statement -/

/-- The records of a ring that also holds ISSUE slot 5 with generation 4 in its bank 1 and CEILING 3100, and ACCEPT slot 9 with a PRIOR of
generation 7 in its bank 2 and Ge = 350. -/
def tRecords : List (Nat × BitVec 8 × Body) :=
  [(0, 0, .lifecycle .factory 0 none), (1, 0, .slot 0 none .delivered), (2, 0, .floor 0 1 0 none), (3, 0, .time 0),
   (4, 0, .slot 5 none
      { role := .issue, userMap := .both, notifyMap := .both, policy := some ⟨100, 1, 20, 0, 20, .carryOn⟩,
        current := some ⟨4, 0, none, some 5000, 1⟩, prior := none }),
   (5, 0, .ceiling 5 4 3100 none),
   (6, 0, .slot 9 none
      { role := .accept, userMap := .both, notifyMap := .both, policy := some ⟨64, 0, 100, 300, 20, .carryOn⟩,
        current := some ⟨8, 0, some 2000, none, 0⟩, prior := some ⟨7, 0, 350, 2⟩ }),
   (7, 0, .floor 9 8 512 none), (8, 0, .floor 9 7 880 none)]

/-- A ring of records as the controller writes them. -/
def tRingOf (l : List (Nat × BitVec 8 × Body)) : List (Nat × RingCell) := l.map fun e => (e.1, .record (.made e.2.1 e.2.2))

theorem tRingOf_valid (l : List (Nat × BitVec 8 × Body)) : validRecords (tRingOf l) = l.map fun e => (e.1, .made e.2.1 e.2.2) := by
  induction l with
  | nil => rfl
  | cons e rest ih => rw [tRingOf, List.map_cons, validRecords_made_cons]; exact congrArg _ ih

/-- Its banks. -/
def tBanks : List (Nat × BankCell) := [(0, .made 0 1 0), (16, .made 5 4 0), (27, .made 9 8 0), (29, .made 9 7 0)]

/-- A part that an abort has left, RSTN low, with the records given. -/
def tLeft (l : List (Nat × BitVec 8 × Body)) : State := .aborted [] (tRingOf l) tBanks State.reset.supply

/-- The scan of its ring. -/
def tScan (l : List (Nat × BitVec 8 × Body)) : Scan := scanRecords (l.map fun e => (e.1, .made e.2.1 e.2.2))

theorem tScan_eq (l : List (Nat × BitVec 8 × Body)) : scanRing (tRingOf l) = tScan l := by rw [scanRing, tRingOf_valid]; rfl

/-- LIFECYCLE and TIME, and further records from position 2 on. -/
def tStored (l : LifeCycle) (more : List (Nat × BitVec 8 × Body)) : List (Nat × BitVec 8 × Body) :=
  (0, 0, .lifecycle l 0 none) :: (1, 0, .time 100) :: more

/-- Batch 42 armed with a CLEAR of slot 5 and an activation tick. -/
def tArm (tick : Option Nat) : List (Nat × BitVec 8 × Body) :=
  [(2, 0, .step 42 ⟨0, .clear 5⟩), (3, 0, .arm 42 [5] tick [.applied])]

/-- A store with no cell and no INSTALL is not marked. -/
theorem tNotMarked (l : List (Nat × BitVec 8 × Body)) (steps : List AppliedStep) (hl : (tScan l).base .lifecycle ≠ none)
    (ht : (tScan l).base .time ≠ none) (hc : ∀ i, ((tScan l).slot i).current = none ∧ ((tScan l).slot i).prior = none)
    (hs : ∀ q, (tScan l).opened.map Prod.fst = some q ∨ (tScan l).arm.map Prod.fst = some q → (tScan l).steps q = steps)
    (hp : ∀ a ∈ steps, a.part = .clear 5) : ¬ (tLeft l).Marked (tScan l) := by
  have no : ∀ q, (tScan l).opened.map Prod.fst = some q ∨ (tScan l).arm.map Prod.fst = some q → ¬ (tLeft l).NextInvalid (tScan l) q := by
    rintro q h ⟨a, ha, i, g, x1, x2, x3, x4, x5, hx, _⟩
    rw [hs q h] at ha
    rw [hp a ha] at hx
    cases hx
  rintro (h | h | ⟨_, i, (⟨k, h, _⟩ | ⟨k, h, _⟩)⟩ | ⟨q, tc, h, hn⟩ | ⟨q, x, y, h, hn⟩)
  · exact hl h
  · exact ht h
  · rw [(hc i).1] at h; cases h
  · rw [(hc i).2] at h; cases h
  · exact no q (.inl (by rw [h]; rfl)) hn
  · exact no q (.inr (by rw [h]; rfl)) hn

theorem witness_startUpRebuildsFromTheRing :
    let s := tLeft tRecords
    let c := tScan tRecords
    scanRing (tRingOf tRecords) = c ∧ State.reset.supply.rstnLow = true ∧ State.reset.supply.inRange = true ∧
    c.opened = none ∧ c.arm = none ∧ c.lifeCycle ≠ .retired ∧ c.base .time = some (.time 0) ∧ ¬ s.Marked c ∧
    c.base (.slot 0) = some (.slot 0 none .delivered) ∧ c.base (.slot 1) = none ∧
    (∃ m k, c.base (.slot 5) = some (.slot 5 none m) ∧ m.role = .issue ∧ m.current = some k) ∧
    (∃ m k y, c.base (.slot 9) = some (.slot 9 none m) ∧ m.role ≠ .issue ∧ m.prior = some k ∧ m.policy = some y ∧ 0 < k.graceEnd) := by
  refine ⟨tScan_eq _, rfl, rfl, by decide +kernel, by decide +kernel, by decide +kernel, by decide +kernel, ?_, by decide +kernel,
    by decide +kernel, ⟨_, _, rfl, rfl, rfl⟩, ⟨_, _, _, rfl, by decide, rfl, rfl, by decide⟩⟩
  have image : ∀ (i : Fin 24) (b : Fin 3) (g : Nat), (i, b, g) ∈ [((0 : Fin 24), (0 : Fin 3), 1), (5, 1, 4), (9, 0, 8), (9, 2, 7)] →
      (tLeft tRecords).journal.validImage i b g = true := by
    intro i b g h
    simp only [List.mem_cons, Prod.mk.injEq, List.not_mem_nil, or_false] at h
    have made : ∀ i b g key, (tLeft tRecords).journal.bank i b = some (.made i g key) →
        (tLeft tRecords).journal.validImage i b g = true := fun i b g key h => by simp [Journal.validImage, h]
    rcases h with ⟨rfl, rfl, rfl⟩ | ⟨rfl, rfl, rfl⟩ | ⟨rfl, rfl, rfl⟩ | ⟨rfl, rfl, rfl⟩ <;> exact made _ _ _ 0 rfl
  have current : ∀ i : Fin 24, ∀ k ∈ ((tScan tRecords).slot i).current,
      (i, k.bank, k.generation) ∈ [((0 : Fin 24), (0 : Fin 3), 1), (5, 1, 4), (9, 0, 8), (9, 2, 7)] := by decide +kernel
  have prior : ∀ i : Fin 24, ∀ k ∈ ((tScan tRecords).slot i).prior,
      (i, k.bank, k.generation) ∈ [((0 : Fin 24), (0 : Fin 3), 1), (5, 1, 4), (9, 0, 8), (9, 2, 7)] := by decide +kernel
  rintro (h | h | ⟨_, i, (⟨k, h, hv⟩ | ⟨k, h, hv⟩)⟩ | ⟨q, tc, h, _⟩ | ⟨q, x, y, h, _⟩)
  · revert h; decide +kernel
  · revert h; decide +kernel
  · rw [image _ _ _ (current i k h)] at hv; cases hv
  · rw [image _ _ _ (prior i k h)] at hv; cases hv
  · revert h; rw [show (tScan tRecords).opened = none by decide +kernel]; intro h; cases h
  · revert h; rw [show (tScan tRecords).arm = none by decide +kernel]; intro h; cases h

/-- An armed batch whose tick is reached at T = 100 and one whose tick is not; an open commit with a record to write and one with none; a
retired part with its erase to begin and one whose erase is complete; a store with no record at all. -/
theorem witness_startUp_of_batches_and_retired :
    let armed (n : Nat) := tStored .factory (tArm (some n))
    let opened := tStored .factory (tArm none ++ [(4, 0, .commitBegin 42 100)])
    let bare := tStored .factory [(2, 0, .arm 42 [] none []), (3, 0, .commitBegin 42 100)]
    let due := tStored .retired []
    let done := tStored .retired [(2, 0, .slot 0 none { SlotMeta.delivered with current := none })]
    (∀ n ∈ [100, 101], (tScan (armed n)).arm = some (42, some n, [.applied]) ∧ ¬ (tLeft (armed n)).Marked (tScan (armed n)) ∧
      (tScan (armed n)).opened = none ∧ (tScan (armed n)).lifeCycle ≠ .retired ∧ (tScan (armed n)).base .time = some (.time 100)) ∧
    ((tScan opened).opened = some (42, 100) ∧ ¬ (tLeft opened).Marked (tScan opened)) ∧
    ((tScan bare).opened = some (42, 100) ∧ ¬ (tLeft bare).Marked (tScan bare) ∧ (tScan bare).steps 42 = []) ∧
    (∀ l ∈ [due, done], ¬ (tLeft l).Marked (tScan l) ∧ (tScan l).opened = none ∧ (tScan l).lifeCycle = .retired) ∧
    (tLeft []).Marked (tScan []) := by
  have clear : ∀ l q, (tScan l).steps q = [⟨0, .clear 5⟩] → ∀ a ∈ ([⟨0, .clear 5⟩] : List AppliedStep), a.part = .clear 5 := by
    intro _ _ _ a h; simp only [List.mem_singleton] at h; rw [h]
  have armed : ∀ n ∈ [100, 101], ¬ (tLeft (tStored .factory (tArm (some n)))).Marked (tScan (tStored .factory (tArm (some n)))) := by
    intro n hn
    simp only [List.mem_cons, List.not_mem_nil, or_false] at hn
    rcases hn with rfl | rfl <;>
    · refine tNotMarked _ [⟨0, .clear 5⟩] (by decide +kernel) (by decide +kernel) (by decide +kernel) ?_ (by decide)
      rintro q (h | h)
      · revert h; rw [show Option.map Prod.fst (Scan.opened _) = (none : Option Nat) by decide +kernel]; intro h; cases h
      · have : q = 42 := by
          rw [show Option.map Prod.fst (Scan.arm _) = some 42 by decide +kernel] at h; exact (Option.some.inj h).symm
        subst this; decide +kernel
  refine ⟨?_, ⟨by decide +kernel, ?_⟩, ⟨by decide +kernel, ?_, by decide +kernel⟩, ?_, .inl (by decide +kernel)⟩
  · intro n hn
    refine ⟨?_, armed n hn, ?_⟩ <;>
    · simp only [List.mem_cons, List.not_mem_nil, or_false] at hn
      rcases hn with rfl | rfl <;> decide +kernel
  · refine tNotMarked _ [⟨0, .clear 5⟩] (by decide +kernel) (by decide +kernel) (by decide +kernel) ?_ (by decide)
    rintro q (h | h)
    · have : q = 42 := by
        rw [show Option.map Prod.fst (Scan.opened _) = some 42 by decide +kernel] at h; exact (Option.some.inj h).symm
      subst this; decide +kernel
    · revert h; rw [show Option.map Prod.fst (Scan.arm _) = (none : Option Nat) by decide +kernel]; intro h; cases h
  · refine tNotMarked _ [] (by decide +kernel) (by decide +kernel) (by decide +kernel) ?_ (by decide)
    rintro q (h | h)
    · have : q = 42 := by
        rw [show Option.map Prod.fst (Scan.opened _) = some 42 by decide +kernel] at h; exact (Option.some.inj h).symm
      subst this; decide +kernel
    · revert h; rw [show Option.map Prod.fst (Scan.arm _) = (none : Option Nat) by decide +kernel]; intro h; cases h
  · intro l hl
    simp only [List.mem_cons, List.not_mem_nil, or_false] at hl
    rcases hl with rfl | rfl <;>
    · refine ⟨tNotMarked _ [] (by decide +kernel) (by decide +kernel) (by decide +kernel) ?_ (by decide), by decide +kernel, by decide +kernel⟩
      rintro q (h | h)
      · revert h; rw [show Option.map Prod.fst (Scan.opened _) = (none : Option Nat) by decide +kernel]; intro h; cases h
      · revert h; rw [show Option.map Prod.fst (Scan.arm _) = (none : Option Nat) by decide +kernel]; intro h; cases h

/-- A store with no record at all, hence no TIME record. -/
theorem witness_startUp_without_a_time_record :
    (scanRing []).base .time = none ∧ latest (scanRing []).newest (fun _ => true) (scanRing []).records = none := by decide +kernel

theorem witness_abortClearsThePart :
    tRun.supply.rstnLow = false ∧ State.reset.supply.rstnLow = true ∧ tRun.supply.inRange = true ∧
    (tAfter (.supplyLoss .whole) tRun).supply.inRange = false := by decide +kernel

theorem witness_pfwnAssertEntersFlush :
    let s := tRenew (tChecking .authenticator) tRun
    (tRun.supply.run = .run ∧ tRun.supply.warning = false ∧ tRun.renewal.beforeArm = false) ∧
    (s.supply.run = .run ∧ s.supply.warning = false ∧ s.renewal.beforeArm = true) := by decide +kernel

/-- At the end of an event in FLUSH the drain condition holds, or a write keeps it from holding. -/
theorem witness_drain :
    (tIn .flush tRun).supply.run = .flush ∧ (tIn .flush tRun).settle.supply.run = .quiescent ∧
    (tIn .flush (tQueue [⟨.append (.time 164), .time⟩] tRun)).settle.supply.run = .flush := by decide +kernel

theorem witness_pfwnReleaseReturnsToRun :
    let s := tAfter .pfwnAssert (tRenew { tBatch .armed with activation := true } tRun)
    s.supply.run = .quiescent ∧ s.supply.warning = true ∧ s.renewal.state = .armed ∧ s.renewal.disarm = false ∧
    s.renewal.activation = true ∧ s.namedPinned = false ∧
    (tAfter .pfwnAssert (tQueue [⟨.append (.time 164), .time⟩] tRun)).supply.run = .flush ∧
    (tAfter .pfwnAssert (tQueue [⟨.append (.time 164), .time⟩] tRun)).renewal.state ≠ .armed := by decide +kernel

theorem witness_tickTable :
    State.reset.supply.run = .starting ∧
    ({ tRun with time := { tRun.time with deferred := true } } : State).time.deferred = true ∧
    (tAt LIMIT tRun).time.t = LIMIT ∧
    ((tAt 164 tRun).supply.run ≠ .starting ∧ (tAt 164 tRun).time.deferred = false ∧ (tAt 164 tRun).time.t ≠ LIMIT ∧
      (tAt 164 tRun).time.t = (tAt 164 tRun).time.tb) ∧
    ((tAt 163 tRun).supply.run ≠ .starting ∧ (tAt 163 tRun).time.deferred = false ∧ (tAt 163 tRun).time.t ≠ LIMIT ∧
      (tAt 163 tRun).time.t < (tAt 163 tRun).time.tb) := by decide +kernel

theorem witness_tickMeetsTheDeadlines :
    let s := tAt 119 (tPinned tRun)
    let e := tSlot 5 (tIssue 3000 3000 LIMIT .spent) s
    s.supply.run ≠ .starting ∧ s.supply.lifeCycle ≠ .retired ∧ s.time.deferred = false ∧ s.time.t ≠ LIMIT ∧
    s.time.t < s.time.tb ∧
    (∃ k, (s.slot 5).current = some k ∧ k.lifetime = some 120 ∧ k.state = .live) ∧
    (∃ k, (e.slot 5).current = some k ∧ k.state ≠ .live) ∧
    (∃ k, (s.slot 0).current = some k ∧ k.lifetime = none) := by
  refine ⟨by decide, by decide, rfl, by decide, by decide, ⟨_, rfl, rfl, rfl⟩, ⟨_, rfl, by decide⟩, ⟨_, rfl, rfl⟩⟩

/-- A tick in RETIRED, and one that reaches the activation tick of an armed batch. -/
theorem witness_tick_in_retired_and_armed :
    let a := tRenew { tBatch .armed with activation := false, activationTick := some 101 } tRun
    ((tLife .retired tRun).supply.run ≠ .starting ∧ (tLife .retired tRun).time.deferred = false ∧
      (tLife .retired tRun).time.t < (tLife .retired tRun).time.tb) ∧
    a.renewal.state = .armed ∧ a.renewal.disarm = false ∧ a.renewal.activation = false ∧ a.time.t + 1 = 101 ∧ a.namedPinned = false ∧
    a.arbiter.hold = .none := by decide +kernel

theorem witness_partTimeLawIsKept :
    tRun.time.Lawful ∧ (tRun.withPending [.tick]).time.Lawful ∧ (∃ t, step (tRun.withPending [.tick]) = .next t) ∧
    (tRun.withPending [.tick]).pending.head? = some .tick :=
  ⟨⟨by decide, by decide, by decide⟩, ⟨by decide, by decide, by decide⟩, ⟨_, rfl⟩, rfl⟩

theorem witness_timeRecordCompletes :
    let s := tQueue [⟨.append (.time 228), .time⟩] { tRun with time := { tRun.time with checkpoint := some 228, deferred := true } }
    s.journal.queue = ⟨.append (.time 228), .time⟩ :: [] ∧ s.journal.toCopy = none ∧ s.time.checkpoint = some 228 ∧
    (∀ e ∈ s.journal.place, e.requester.ofBatch = false) ∧ s.time.deferred = true ∧ s.supply.run ≠ .starting ∧
    ({ s with time := { s.time with deferred := false } } : State).time.checkpoint = some 228 := by
  decide +kernel

theorem witness_secondBeatCountsTheWindow :
    let s (n : Nat) := tRenew { tBatch .staging with windowCount := n } tRun
    tRun.renewal.state ≠ .staging ∧ (s 118).renewal.state = .staging ∧ (s 118).renewal.windowCount + 1 < 120 ∧
    120 ≤ (s 119).renewal.windowCount + 1 ∧ (s 119).renewal.windowCount < 120 ∧ 120 ≤ (s 120).renewal.windowCount := by
  decide +kernel

/-- The slot of `tRun`'s deadlines, with its marks and state set. -/
def tMarked (st : CellState) (mark : Bool) : Current := ⟨4, st, 0, some 120, .issue 3000 3000 LIMIT, 1, false, mark⟩

theorem witness_lifeWarningRaisesLifeLow :
    tRun.supply.run ≠ .starting ∧ tRun.supply.lifeCycle ≠ .retired ∧ (tRun.slot 5).current = some (tMarked .live false) ∧
    (tRun.slot 5).policy = some ⟨100, 1, 20, 0, 20, .carryOn⟩ ∧ (tMarked .live false).lifetime = some 120 ∧
    (tMarked .live false).lifeWarned = false ∧ (tMarked .live false).state ≠ .expired ∧
    (tMarked .live false).activation + 120 ≤ tRun.time.t + 20 ∧
    (tAt 99 tRun).time.t + 20 < (tMarked .live false).activation + 120 ∧ (tMarked .live true).lifeWarned = true := by
  decide +kernel

theorem witness_expiryExpiresTheCell :
    let s := tAt 120 tRun
    s.supply.run ≠ .starting ∧ s.supply.lifeCycle ≠ .retired ∧ (s.slot 5).current = some (tMarked .live false) ∧
    (tMarked .live false).lifetime = some 120 ∧ (tMarked .live false).state = .live ∧
    (tMarked .live false).activation + 120 ≤ s.time.t ∧
    ((tAt 119 tRun).slot 5).current = some (tMarked .live false) ∧
    (tAt 119 tRun).time.t < (tMarked .live false).activation + 120 ∧
    (s.slot 0).current.map (·.lifetime) = some none ∧
    ((tSlot 5 (tIssue 3000 3000 LIMIT .spent) s).slot 5).current = some (tMarked .spent false) := by decide +kernel

theorem witness_graceEndRemovesThePrior :
    tRun.supply.run ≠ .starting ∧ (tRun.slot 9).prior = some ⟨7, 0, 900, 880, 350, 2⟩ ∧ tRun.supply.lifeCycle ≠ .retired ∧
    350 ≤ (tAt 350 tRun).time.t ∧ ((tAt 350 tRun).slot 9).prior = some ⟨7, 0, 900, 880, 350, 2⟩ ∧
    (tAt 349 tRun).time.t < 350 ∧ (tLife .retired tRun).supply.lifeCycle = .retired := by decide +kernel

theorem witness_pinLapseRemovesThePin :
    let s := tAt 120 (tPinned tRun)
    let q := tIn .quiescent s
    (s.supply.run ≠ .starting ∧ s.supply.lifeCycle ≠ .retired ∧ (s.slot 5).pin = some ⟨.M, 4, 120⟩ ∧ 120 ≤ s.time.t) ∧
    (q.supply.run ≠ .starting ∧ q.supply.run ≠ .run ∧ q.AtRest ∧ (q.slot 5).pin = some ⟨.M, 4, 120⟩) := by
  unfold State.AtRest; decide +kernel

theorem witness_scheduledActivationSetsTheFlag :
    let r : Renewal := { tBatch .armed with activationTick := some 100 }
    let s := tRenew r tRun
    (s.renewal.state = .armed ∧ s.renewal.activationTick = some 100 ∧ s.supply.run ≠ .starting ∧ s.AtRest) ∧
    (s.renewal.disarm = false ∧ s.renewal.activation = false ∧ 100 ≤ s.time.t ∧ s.supply.run = .run ∧
      s.namedPinned = false ∧ s.arbiter.hold = .none) ∧
    ((tPinned s).AtRest ∧ (tPinned s).namedPinned = true) ∧ ((tIn .quiescent s).AtRest ∧ (tIn .quiescent s).supply.run ≠ .run) ∧
    ((tAt 99 s).AtRest ∧ (tAt 99 s).time.t < 100) ∧ (tRenew { r with disarm := true } tRun).AtRest ∧
    (tRenew { r with activation := true } tRun).AtRest := by
  unfold State.AtRest; decide +kernel

theorem witness_writeByteTable :
    let r : PortRecord := { PortRecord.cleared with framing := .write, busTimer := .running }
    let q : PortRecord := { r with request := some (.pin 5), reply := .notReady }
    tRun.portM.framing ≠ .write ∧ r.framing = .write ∧ ({ r with latch := true } : PortRecord).latch = true ∧
    (q.latch = false ∧ q.phase = .address ∧ q.request.isSome = true) ∧
    (r.latch = false ∧ r.phase = .address ∧ r.request = none) ∧
    (224 < (225 : Byte).toNat ∧ (224 : Byte).toNat ≤ 224 ∧ (0 : Byte).toNat ≤ 224) ∧
    (({ r with phase := .command } : PortRecord).phase = .command) ∧
    (({ r with phase := .length, byteCount := 1 } : PortRecord).byteCount = 1 ∧
      ({ r with phase := .length } : PortRecord).byteCount = 0) := by decide +kernel

theorem witness_writeTransferOpensAFrame :
    tRun.portM.framing = .idle ∧ (0x4A = tRun.portM.address ∧ tRun.acknowledges = true) ∧ 0x4B ≠ tRun.portM.address ∧
    (tIn .quiescent tRun).acknowledges = false ∧ (tIn .quiescent tRun).portM.framing = .idle := by decide +kernel

theorem witness_readTransferServesTheReply :
    let s (b : ReplyBuffer) := tRun.setPort .M { tRun.portM with reply := b }
    (∀ b, (s b).portM.framing = .idle ∧ (s b).acknowledges = true ∧ (s b).portM.reply = b) := fun _ => ⟨rfl, rfl, rfl⟩

theorem witness_transfers_in_every_framing :
    let s (f : Framing) := tRun.setPort .M { tRun.portM with framing := f }
    (s .stretch).portM.framing = .stretch ∧ (s .idle).portM.framing ≠ .stretch ∧ (s .read).portM.framing = .read ∧
    ((s .write).portM.framing = .write ∧ (s .write).portM.phase = .address) ∧
    (let r := (tFrame 0x10 [5, 0] tRun).portM
     (r.framing = .write ∧ r.phase ≠ .address ∧ r.request = none) ∧ (r.latch = false ∧ r.phase = .length ∧ r.byteCount = 0) ∧
     ({ r with byteCount := 1 } : PortRecord).byteCount = 1 ∧
     ({ r with request := some (.pin 5) } : PortRecord).request.isSome = true) := by decide +kernel

theorem witness_unknownCommandIsRefused :
    let s := tFrame 0x14 [] tRun
    s.Holds .M 0x14 ∧ s.AtRest ∧
    (0x14 : Byte) ∉ ([0x10, 0x11, 0x12, 0x13, 0x20, 0x21, 0x22, 0x30, 0x31, 0x32, 0x33, 0x34, 0x35] : List Byte) := by
  unfold State.Holds State.AtRest; decide +kernel

set_option maxRecDepth 100000 in
/-- A frame of each command that R202 refuses: its payload is one byte too short or too long for its layout. -/
theorem witness_frameChecksComeFirst :
    let s (code : Byte) (b : List Byte) := tFrame code b tRun
    ((s 0x10 [5]).Holds .M 0x10 ∧ (s 0x10 [5]).AtRest ∧ makeTagFrame ((s 0x10 [5]).payload .M) = .error .badField) ∧
    ((s 0x11 [9]).Holds .M 0x11 ∧ (s 0x11 [9]).AtRest ∧ checkTagFrame ((s 0x11 [9]).payload .M) = .error .badField) ∧
    ((s 0x12 []).Holds .M 0x12 ∧ (s 0x13 []).Holds .M 0x13 ∧ pinFrame [] = .error .badField) ∧
    ((s 0x20 [24]).Holds .M 0x20 ∧ slotStatusFrame [24] = .error .noSlot) ∧
    ((s 0x21 [0]).Holds .M 0x21 ∧ (s 0x22 [0]).Holds .M 0x22 ∧ (s 0x33 [0]).Holds .M 0x33 ∧
      emptyFrame [0] = .error .badField) ∧
    ((s 0x30 [0]).Holds .M 0x30 ∧ batchOpenFrame [0] = .error .badField) ∧
    ((s 0x31 [0]).Holds .M 0x31 ∧ batchStepFrame [0] = .error .badField) ∧
    ((s 0x32 [0]).Holds .M 0x32 ∧ batchCloseFrame [0] = .error .badField) ∧
    ((s 0x34 [0, 0, 0, 0]).Holds .M 0x34 ∧ (s 0x35 [0, 0, 0, 0]).Holds .M 0x35 ∧
      sequenceFrame [0, 0, 0, 0] = .error .badField) := by
  refine ⟨⟨⟨rfl, rfl, rfl⟩, ⟨rfl, by decide⟩, rfl⟩, ⟨⟨rfl, rfl, rfl⟩, ⟨rfl, by decide⟩, rfl⟩,
    ⟨⟨rfl, rfl, rfl⟩, ⟨rfl, rfl, rfl⟩, rfl⟩, ⟨⟨rfl, rfl, rfl⟩, rfl⟩,
    ⟨⟨rfl, rfl, rfl⟩, ⟨rfl, rfl, rfl⟩, ⟨rfl, rfl, rfl⟩, rfl⟩, ⟨⟨rfl, rfl, rfl⟩, rfl⟩, ⟨⟨rfl, rfl, rfl⟩, rfl⟩,
    ⟨⟨rfl, rfl, rfl⟩, rfl⟩, ⟨⟨rfl, rfl, rfl⟩, ⟨rfl, rfl, rfl⟩, rfl⟩⟩

theorem witness_slotStatusReportsTheSlot :
    let s (b : List Byte) := tFrame 0x20 b tRun
    ((s [23]).Holds .M 0x20 ∧ (s [23]).AtRest ∧ (s [23]).payload .M = [23] ∧ (23 : Byte).toNat = (23 : Fin 24).val) ∧
    ((s [24]).Holds .M 0x20 ∧ (s [24]).AtRest ∧ 24 ≤ (24 : Byte).toNat) ∧
    ((s []).Holds .M 0x20 ∧ (s []).AtRest ∧ ((s []).payload .M).length ≠ 1) := by
  unfold State.Holds State.AtRest; decide +kernel

theorem witness_partStatusReportsThePart :
    let s := tFrame 0x21 [] tRun
    let e := tSlot 0 Slot.blank s
    (s.Holds .M 0x21 ∧ s.AtRest ∧ s.payload .M = [] ∧ (s.slot 0).current.map (·.counters) = some (.floor 41 41)) ∧
    (e.Holds .M 0x21 ∧ e.AtRest ∧ e.payload .M = [] ∧ (e.slot 0).current = none) := by
  unfold State.Holds State.AtRest; decide +kernel

theorem witness_readDemandTakesTheOldest :
    let s := tFrame 0x22 [] tRun
    let q := { s with queueM := [⟨.restarted, none, none, none, 100⟩] }
    (s.Holds .M 0x22 ∧ s.AtRest ∧ s.payload .M = [] ∧ s.queue .M = []) ∧
    (q.Holds .M 0x22 ∧ q.AtRest ∧ q.payload .M = [] ∧ q.queue .M = ⟨.restarted, none, none, none, 100⟩ :: []) := by
  unfold State.Holds State.AtRest; decide +kernel

theorem witness_statusRepliesHideTheKeys :
    tRun.AtRest ∧ Instr.partStatus .M ∈ [Instr.slotStatus .M, .partStatus .M, .readDemand .M, .batchResult .M] ∧
    ∃ t, exec (.partStatus .M) (tFrame 0x21 [] tRun) = .next t := ⟨⟨rfl, by decide⟩, by decide, ⟨_, rfl⟩⟩

theorem witness_arrivalTable :
    let full : Demand := ⟨.queueFull, none, none, none, 0⟩
    let same (g : Nat) : Demand := ⟨.counterLow, some 4, some g, none, 0⟩
    let other (i : Fin 24) : Demand := ⟨.expired, some i, some 1, none, 0⟩
    (∃ e ∈ [full], e.kind = .queueFull) ∧
    ((∀ e ∈ [other 0, same 9], e.kind ≠ .queueFull) ∧ [other 0, same 9] = [other 0] ++ same 9 :: [] ∧
      (same 9).kind = (same 10).kind ∧ (same 9).slot = (same 10).slot ∧
      ∀ x ∈ [other 0] ++ ([] : List Demand), x.kind ≠ (same 10).kind ∨ x.slot ≠ (same 10).slot) ∧
    (∀ n ∈ [14, 15], let q := (List.range n).map fun i => other (Fin.ofNat 24 i)
      q.length = n ∧ (∀ e ∈ q, e.kind ≠ .queueFull) ∧ ∀ x ∈ q, x.kind ≠ (same 10).kind ∨ x.slot ≠ (same 10).slot) := by
  decide +kernel

theorem witness_laws_of_the_steps :
    let s := tRun.withPending [.pinLapse 5]
    s.DemandsLawful ∧ s.journal.Lawful ∧ s.PortsLawful ∧ s.QuietLawful ∧ ∃ t, step s = .next t := by
  refine ⟨⟨?_, ?_⟩, ⟨⟨rfl, rfl, rfl, rfl⟩, ?_⟩, ⟨?_, ?_⟩, ⟨rfl, fun _ => rfl, ?_⟩, ⟨_, rfl⟩⟩
  · unfold demandsLawful; decide +kernel
  · unfold demandsLawful; decide +kernel
  · unfold Journal.Bounded; decide +kernel
  · unfold PortRecord.Lawful; decide +kernel
  · unfold PortRecord.Lawful; decide +kernel
  · intro p; cases p <;> decide +kernel

theorem witness_quietLaw_of_a_held_frame :
    let s := tFrame 0x21 [] tRun
    s.QuietLawful ∧ s.Holds .M 0x21 :=
  ⟨⟨rfl, fun _ => rfl, fun p => by cases p <;> decide +kernel⟩, ⟨rfl, rfl, rfl⟩⟩

/-! ### Batch commands -/

/-- The payload of a BATCH_OPEN of batch 42 with two steps. -/
def tOpen : List Byte := [0, 0, 0, 42, 2, 0, 0]

set_option maxRecDepth 100000 in
theorem witness_batchCommandsNeedTheBatchPort :
    let s (code : Byte) (b : List Byte) := tFrame code b tRun
    (s 0x30 tOpen).AtRest ∧ (s 0x30 tOpen).Holds .M 0x30 ∧ (∃ h, batchOpenFrame ((s 0x30 tOpen).payload .M) = .ok h) ∧
    (s 0x31 [0, 3, 1, 5]).Holds .M 0x31 ∧ batchStepFrame ((s 0x31 [0, 3, 1, 5]).payload .M) = .ok tClear5 ∧
    (s 0x32 [0, 0, 0, 0, 0, 0, 0, 1]).Holds .M 0x32 ∧ (∃ a, batchCloseFrame [0, 0, 0, 0, 0, 0, 0, 1] = .ok a) ∧
    (s 0x33 []).Holds .M 0x33 ∧ (s 0x33 []).payload .M = [] ∧
    (s 0x34 [0, 0, 0, 1]).Holds .M 0x34 ∧ (s 0x35 [0, 0, 0, 1]).Holds .M 0x35 ∧ sequenceFrame [0, 0, 0, 1] = .ok 1 ∧
    (tLife .retired (s 0x33 [])).AtRest ∧ (tIn .fault (s 0x33 [])).AtRest ∧
    (tLife .operational (s 0x33 [])).AtRest ∧ (tLife .operational (s 0x33 [])).supply.run ≠ .fault := by
  refine ⟨⟨rfl, by decide⟩, ⟨rfl, rfl, rfl⟩, ⟨_, rfl⟩, ⟨rfl, rfl, rfl⟩, rfl, ⟨rfl, rfl, rfl⟩, ⟨_, rfl⟩, ⟨rfl, rfl, rfl⟩, rfl,
    ⟨rfl, rfl, rfl⟩, ⟨rfl, rfl, rfl⟩, rfl, ⟨rfl, by decide⟩, ⟨rfl, by decide⟩, ⟨rfl, by decide⟩, by decide⟩

set_option maxRecDepth 100000 in
theorem witness_batchOpenStagesABatch :
    let s := tFrame 0x30 tOpen tRun
    let b := tFrame 0x30 tOpen (tRenew (tBatch .staging) tRun)
    (s.Holds .M 0x30 ∧ s.AtRest ∧ s.BatchPort .M ∧ s.renewal.state = .idle) ∧
    (b.Holds .M 0x30 ∧ b.AtRest ∧ b.BatchPort .M ∧ b.renewal.state ≠ .idle) ∧
    batchOpenFrame (s.payload .M) = .ok ⟨42, some 2, some 0, tOpen⟩ :=
  ⟨⟨⟨rfl, rfl, rfl⟩, ⟨rfl, by decide⟩, ⟨rfl, rfl⟩, rfl⟩, ⟨⟨rfl, rfl, rfl⟩, ⟨rfl, by decide⟩, ⟨rfl, rfl⟩, by decide⟩, rfl⟩

/-- Batch 42 in STAGING holding `buf`, with the BATCH_STEP of `x` complete at port M. -/
def tStep (x : List Byte) (buf : List StepRecord) : State := tFrame 0x31 x (tRenew { tBatch .staging with buffer := buf } tRun)

set_option maxRecDepth 100000 in
theorem witness_batchStepTable :
    let idle := tFrame 0x31 [0, 3, 1, 5] tRun
    (idle.Holds .M 0x31 ∧ idle.AtRest ∧ idle.BatchPort .M ∧ batchStepFrame (idle.payload .M) = .ok tClear5 ∧
      idle.renewal.state ≠ .staging) ∧
    ((tStep [0, 3, 1, 5] []).Holds .M 0x31 ∧ (tStep [0, 3, 1, 5] []).AtRest ∧ (tStep [0, 3, 1, 5] []).BatchPort .M ∧
      (tStep [0, 3, 1, 5] []).renewal.count = 2) ∧
    ((tStep [0, 3, 1, 5] [tClear5]).Holds .M 0x31 ∧ tClear5.index ≠ [tClear5].length) ∧
    ((tStep [1, 3, 1, 5] [tClear5]).Holds .M 0x31 ∧ (tStep [1, 3, 1, 5] [tClear5]).AtRest ∧
      batchStepFrame [1, 3, 1, 5] = .ok ⟨1, false, .clear 5, [1, 3, 1, 5]⟩ ∧
      (tStep [1, 3, 1, 5] [tClear5]).renewal.buffer.any (fun y => decide (y.part.slot = some 5)) = true) := by
  refine ⟨⟨⟨rfl, rfl, rfl⟩, ⟨rfl, by decide⟩, ⟨rfl, rfl⟩, rfl, by decide⟩, ⟨⟨rfl, rfl, rfl⟩, ⟨rfl, by decide⟩, ⟨rfl, rfl⟩, rfl⟩,
    ⟨⟨rfl, rfl, rfl⟩, by decide⟩, ⟨⟨rfl, rfl, rfl⟩, ⟨rfl, by decide⟩, rfl, by decide⟩⟩

/-- Batch 42 in STAGING with its BATCH_CLOSE complete at port M, holding `buf` of the count in its header, in a part with F0 = `f`. -/
def tClose (buf : List StepRecord) (f : Nat) : State :=
  tSlot 0 { tSlot0 with current := some ⟨1, .live, 0, none, .floor f f, 0, false, false⟩ }
    (tFrame 0x32 [0, 0, 0, 0, 0, 0, 0, 1]
      (tRenew { tBatch .staging with header := some ⟨42, some 1, some 0, []⟩, buffer := buf } tRun))

set_option maxRecDepth 100000 in
theorem witness_batchCloseBeginsChecking :
    let s := tClose [tClear5] 41
    let idle := tFrame 0x32 [0, 0, 0, 0, 0, 0, 0, 1] tRun
    (s.Holds .M 0x32 ∧ s.BatchPort .M ∧ batchCloseFrame (s.payload .M) = .ok 1 ∧ s.EngineIdle ∧ s.renewal.state = .staging ∧
      s.renewal.buffer.length = s.renewal.count ∧ ∀ f ∈ s.f0, f < s.renewal.sequence) ∧
    ((tClose [] 41).Holds .M 0x32 ∧ (tClose [] 41).EngineIdle ∧ (tClose [] 41).renewal.buffer.length ≠ (tClose [] 41).renewal.count) ∧
    (idle.Holds .M 0x32 ∧ idle.BatchPort .M ∧ idle.EngineIdle ∧ idle.renewal.state ≠ .staging) := by
  unfold State.Holds State.BatchPort State.EngineIdle
  refine ⟨⟨?_, ?_, rfl, ?_⟩, ?_, ?_⟩ <;> decide +kernel

theorem witness_oldSequenceIsRefused :
    let s := tClose [tClear5] 42
    let m := tClose [tClear5] LIMIT
    (s.Holds .M 0x32 ∧ s.AtRest ∧ s.BatchPort .M ∧ s.renewal.state = .staging ∧ s.renewal.buffer.length = s.renewal.count ∧
      s.f0 = some 42 ∧ s.renewal.sequence ≤ 42) ∧
    (m.Holds .M 0x32 ∧ m.AtRest ∧ m.BatchPort .M ∧ m.f0 = some LIMIT ∧ m.renewal.sequence ≤ LIMIT) := by
  unfold State.Holds State.BatchPort State.AtRest; decide +kernel

theorem witness_batchResultReportsTheResult :
    let s := tFrame 0x33 [] (tRenew (tBatch .staging) tRun)
    s.Holds .M 0x33 ∧ s.AtRest ∧ s.BatchPort .M ∧ s.payload .M = [] := by
  unfold State.Holds State.BatchPort State.AtRest; decide +kernel

/-- ACTIVATE 42 complete at port M. -/
def tActivate (s : State) : State := tFrame 0x34 [0, 0, 0, 42] s

/-- CANCEL 42 complete at port M. -/
def tCancel (s : State) : State := tFrame 0x35 [0, 0, 0, 42] s

/-- The hold requested while the engine computes a tag for port L. -/
def tHeld (s : State) : State :=
  { s with
    arbiter := { s.arbiter with hold := .requested }
    engine := some (.issue .L 5 4 3001 false 1)
    portL := { s.portL with request := some (.makeTag 5 none), reply := .notReady } }

set_option maxRecDepth 100000 in
theorem witness_activateTable :
    let at_ (r : Renewal) := tActivate (tRenew r tRun)
    let ok (s : State) := s.Holds .M 0x34 ∧ s.AtRest ∧ s.BatchPort .M
    sequenceFrame [0, 0, 0, 42] = .ok 42 ∧ ok (at_ (tBatch .staging)) ∧ ok (at_ (tChecking .authenticator)) ∧
    (ok (at_ { Renewal.idle with lastCommitted := 42 }) ∧ ok (at_ Renewal.idle)) ∧
    (ok (at_ { tBatch .armed with header := some ⟨43, none, none, []⟩ }) ∧ ok (at_ (tBatch .armed)) ∧
      ok (at_ (tBatch .committing)) ∧ (at_ (tBatch .armed)).renewal.sequence = 42) ∧
    (ok (tPinned (at_ (tBatch .armed))) ∧ (tPinned (at_ (tBatch .armed))).namedPinned = true) ∧
    (ok (tHeld (at_ (tBatch .armed))) ∧ (tHeld (at_ (tBatch .armed))).arbiter.hold = .requested) ∧
    (ok (tEngine (.issue .L 5 4 3001 false 1) (at_ (tBatch .armed))) ∧ (at_ (tBatch .armed)).arbiter.hold = .none) ∧
    ((at_ (tBatch .armed)).EngineIdle ∧ (at_ (tBatch .armed)).inCharge .L = false ∧
      (at_ (tBatch .armed)).namedPinned = false) := by
  unfold State.Holds State.BatchPort State.AtRest State.EngineIdle
  refine ⟨rfl, ?_⟩; dsimp only; and_intros <;> decide +kernel

set_option maxRecDepth 100000 in
theorem witness_cancelTable :
    let at_ (r : Renewal) := tCancel (tRenew r tRun)
    let ok (s : State) := s.Holds .M 0x35 ∧ s.AtRest ∧ s.BatchPort .M
    sequenceFrame [0, 0, 0, 42] = .ok 42 ∧ ok (at_ Renewal.idle) ∧
    ok (at_ { tBatch .armed with header := some ⟨43, none, none, []⟩ }) ∧ ok (at_ (tBatch .committing)) ∧
    ok (at_ (tBatch .staging)) ∧ ok (at_ (tChecking .images)) ∧ (ok (at_ (tBatch .armed)) ∧ (at_ (tBatch .armed)).EngineIdle) ∧
    (ok (tHeld (at_ (tBatch .armed))) ∧ (tHeld (at_ (tBatch .armed))).engine.isSome = true) ∧
    (ok (at_ (tChecking .arm)) ∧ (at_ (tChecking .arm)).renewal.sequence = 42) := by
  unfold State.Holds State.BatchPort State.AtRest State.EngineIdle
  refine ⟨rfl, ?_⟩; dsimp only; and_intros <;> decide +kernel

/-! ### Arbiter and key commands -/

theorem witness_arbiterGrants :
    let free : Arbiter := Arbiter.start
    let in_ (a : Arbiter) := { tRun with arbiter := a }
    let x : CheckInput := .authenticator 42 [] 0
    (tHeld tRun).engine.isSome = true ∧ (in_ { free with hold := .granted }).arbiter.hold = .granted ∧
    ((in_ { free with resumed := [⟨.M, none⟩] }).engine = none ∧ (in_ { free with resumed := [⟨.M, none⟩] }).arbiter.hold ≠ .granted) ∧
    ((in_ { free with hold := .requested }).inCharge .M = false ∧ (in_ { free with hold := .requested }).inCharge .L = false) ∧
    ({ tHeld tRun with engine := none } : State).inCharge .L = true ∧
    (({ free with checking := some x, passed := 2, waitM := true } : Arbiter).passed = 2) ∧
    (({ free with checking := some x } : Arbiter).waitM = false ∧ ({ free with checking := some x } : Arbiter).waitL = false) ∧
    (({ free with waitM := true } : Arbiter).waiting .M = true ∧ ({ free with waitM := true } : Arbiter).waiting .L = false) ∧
    (({ free with waitM := true, waitL := true } : Arbiter).turn = Port.M.other) ∧
    (free.hold = .none ∧ free.checking = none ∧ free.waitM = false ∧ free.waitL = false) := by decide +kernel

/-- MAKE_TAG on slot `i` complete at port M, of a part in `s`, with an expected generation of 4. -/
def tMake (i : Byte) (s : State) : State := tFrame 0x10 [i, 1, 0, 4] s

set_option maxRecDepth 100000 in
theorem witness_makeTagRefusals :
    let ok (s : State) := s.Holds .M 0x10 ∧ s.EngineIdle ∧ s.supply.run ≠ .flush
    let set (c : Slot) := tMake 5 (tSlot 5 c tRun)
    let live := tIssue 3000 3000 LIMIT .live
    makeTagFrame ((tMake 24 tRun).payload .M) = .ok (24, some 4) ∧ makeTagFrame ((tMake 5 tRun).payload .M) = .ok (5, some 4) ∧
    makeTagFrame ((tMake 23 tRun).payload .M) = .ok (23, some 4) ∧
    ok (tLife .retired (tMake 5 tRun)) ∧ ok (tIn .fault (tMake 5 tRun)) ∧ ok (tMake 24 tRun) ∧
    (ok (tMake 23 tRun) ∧ ((tMake 23 tRun).slot 23).role ≠ .issue) ∧
    (ok (set { live with userMap := .only .L }) ∧ ((set { live with userMap := .only .L }).slot 5).userMap.has .M = false) ∧
    ok (set { live with current := none }) ∧
    ok (tFrame 0x10 [5, 1, 0, 5] tRun) ∧ ok (set (tIssue 3000 3000 LIMIT .expired)) ∧
    ok (set (tIssue 3000 3000 3000 .spent)) := by
  unfold State.Holds State.EngineIdle
  refine ⟨rfl, rfl, rfl, ?_⟩; dsimp only; and_intros <;> decide +kernel

set_option maxRecDepth 100000 in
theorem witness_makeTagIssuesOrReserves :
    let s (n : Nat) := tMake 5 (tSlot 5 (tIssue n 3000 LIMIT .live) tRun)
    let w := tMake 5 (tSlot 5 { tIssue 3000 3000 LIMIT .live with wait := some ⟨.ceiling 4 3100, .L, []⟩ } tRun)
    makeTagFrame ((s 3000).payload .M) = .ok (5, some 4) ∧
    (∀ n ∈ [2999, 3000], (s n).Holds .M 0x10 ∧ (s n).EngineIdle ∧ (s n).supply.run = .run ∧ (s n).supply.lifeCycle ≠ .retired ∧
      ((s n).slot 5).role = .issue ∧ ((s n).slot 5).userMap.has .M = true ∧
      ((s n).slot 5).current = some ⟨4, .live, 0, some 120, .issue n 3000 LIMIT, 1, false, false⟩ ∧
      ((s n).slot 5).policy = some ⟨100, 1, 20, 0, 20, .carryOn⟩ ∧ ((s n).slot 5).wait = none) ∧
    2999 + 1 ≤ 3000 ∧ 3000 < 3000 + 1 ∧
    (w.Holds .M 0x10 ∧ w.EngineIdle ∧ (w.slot 5).wait = some ⟨.ceiling 4 3100, .L, []⟩) := by
  unfold State.Holds State.EngineIdle
  refine ⟨rfl, ?_⟩; dsimp only; and_intros <;> decide +kernel

theorem witness_issueCompletesTheRequest :
    (tEngine (.issue .M 5 4 3001 false 1) (tMake 5 tRun)).engine = some (.issue .M 5 4 3001 false 1) := rfl

/-- CHECK_TAG complete at port M, with tag 7: slot, generation and counter as given. -/
def tCheck (i g c : Nat) (s : State) : State :=
  tFrame 0x11 (beBytes 1 i ++ beBytes 2 g ++ beBytes 4 c ++ [0, 0, 0, 0, 0, 0, 0, 7]) s

set_option maxRecDepth 100000 in
theorem witness_checkTagTable :
    let ok (s : State) := s.Holds .M 0x11 ∧ s.EngineIdle ∧ s.supply.run ≠ .flush
    let set (c : Slot) := tCheck 9 8 571 (tSlot 9 c tRun)
    (∀ x ∈ [(24, 8, 571), (9, 8, 570), (9, 8, 571), (9, 7, 900), (9, 7, 901), (9, 6, 1), (23, 8, 571)],
      ok (tCheck x.1 x.2.1 x.2.2 tRun) ∧
      checkTagFrame ((tCheck x.1 x.2.1 x.2.2 tRun).payload .M) = .ok (x.1, x.2.1, x.2.2, 7)) ∧
    ok (tLife .retired (tCheck 9 8 571 tRun)) ∧ ok (tIn .fault (tCheck 9 8 571 tRun)) ∧
    (tRun.slot 23).role ≠ .accept ∧ (tRun.slot 9).role = .accept ∧ (tRun.slot 9).wait = none ∧
    (tRun.slot 9).current = some ⟨8, .live, 50, some 2000, .floor 570 512, 0, false, false⟩ ∧
    (tRun.slot 9).prior = some ⟨7, 0, 900, 880, 350, 2⟩ ∧
    (ok (set { tAccept with userMap := .only .L }) ∧ (PortSet.only .L).has .M = false) ∧
    ok (set { tAccept with current := none }) ∧
    ok (set { tAccept with wait := some ⟨.floor 8 600 .current, .L, []⟩ }) ∧
    (∀ st ∈ [CellState.expired, .spent],
      ok (set { tAccept with current := some ⟨8, st, 50, some 2000, .floor 570 512, 0, false, false⟩ })) := by
  unfold State.Holds State.EngineIdle
  refine ⟨?_, ?_⟩
  · intro x hx
    simp only [List.mem_cons, List.not_mem_nil, or_false] at hx
    rcases hx with rfl | rfl | rfl | rfl | rfl | rfl | rfl <;> exact ⟨by decide +kernel, rfl⟩
  · dsimp only; and_intros <;> decide +kernel

/-- A CHECK_TAG of generation 8 and counter `c` in the key engine, whose tag is `tag`. -/
def tCompare (c : Nat) (tag : Tag) (pos : Position) : State :=
  tEngine (.compare .M 9 (match pos with | .current => 8 | .prior => 7) c tag pos 0 576) (tCheck 9 8 c tRun)

theorem witness_tagComparisonTable :
    let tag := tagOver (tRun.journal.keyAt 9 0) 9 8 575 []
    let edge := tagOver (tRun.journal.keyAt 9 0) 9 8 576 []
    let old := tagOver (tRun.journal.keyAt 9 0) 9 7 575 []
    (tCompare 575 tag .current).engine = some (.compare .M 9 8 575 tag .current 0 576) ∧
    ((tCompare 575 tag .current).portM.buffer.payload.drop 15 = [] ∧ tag ≠ tag + 1 ∧ 575 < 576) ∧
    ((tCompare 576 edge .current).engine = some (.compare .M 9 8 576 edge .current 0 576) ∧
      (tCompare 576 edge .current).supply.run = .run ∧ (tIn .fault (tCompare 576 edge .current)).supply.run = .fault) ∧
    ((tCompare 575 old .prior).engine = some (.compare .M 9 7 575 old .prior 0 576) ∧
      ((tCompare 575 old .prior).slot 9).prior = some ⟨7, 0, 900, 880, 350, 2⟩) := by
  refine ⟨rfl, ⟨rfl, ?_, by decide⟩, ⟨rfl, rfl, rfl⟩, ⟨rfl, rfl⟩⟩
  simp

/-- PIN on a slot complete at port M. -/
def tPin (i : Byte) (s : State) : State := tFrame 0x12 [i] s

set_option maxRecDepth 100000 in
theorem witness_pinTable :
    let ok (s : State) := s.Holds .M 0x12 ∧ s.EngineIdle ∧ s.supply.run ≠ .flush
    let set (c : Slot) := tPin 5 (tSlot 5 c tRun)
    let live := tIssue 3000 3000 LIMIT .live
    let due := tPin 5 (tRenew { tBatch .armed with activation := true } tRun)
    pinFrame ((tPin 24 tRun).payload .M) = .ok 24 ∧ pinFrame ((tPin 5 tRun).payload .M) = .ok 5 ∧
    ok (tLife .retired (tPin 5 tRun)) ∧ ok (tIn .fault (tPin 5 tRun)) ∧ ok (tPin 24 tRun) ∧
    (ok (tPin 0 tRun) ∧ ((tPin 0 tRun).slot 0).role = .renew) ∧ ok (set { live with userMap := .only .L }) ∧
    ok (set { live with current := none }) ∧ ok (set { live with policy := some ⟨100, 1, 20, 0, 0, .carryOn⟩ }) ∧
    (ok due ∧ due.activationDue 5 = true) ∧
    (∀ h ∈ [Port.M, .L], ok (set { live with pin := some ⟨h, 4, 110⟩ }) ∧
      (set { live with pin := some ⟨h, 4, 110⟩ }).activationDue 5 = false) ∧
    (ok (set live) ∧ ((set live).slot 5).pin = none ∧ ((set live).slot 5).role = .issue) := by
  unfold State.Holds State.EngineIdle
  refine ⟨rfl, rfl, ?_⟩; dsimp only; and_intros <;> decide +kernel

set_option maxRecDepth 100000 in
theorem witness_unpinTable :
    let ok (s : State) := s.Holds .M 0x13 ∧ s.EngineIdle ∧ s.supply.run ≠ .flush
    let at_ (i : Byte) (s : State) := tFrame 0x13 [i] s
    pinFrame ((at_ 24 tRun).payload .M) = .ok 24 ∧ ok (tLife .retired (at_ 5 tRun)) ∧ ok (tIn .fault (at_ 5 tRun)) ∧
    ok (at_ 24 tRun) ∧ (ok (at_ 0 tRun) ∧ ((at_ 0 tRun).slot 0).userMap.has .M = false) ∧
    (ok (at_ 5 tRun) ∧ ∀ h ∈ ((at_ 5 tRun).slot 5).pin, h.holder ≠ .M) ∧
    (ok (at_ 5 (tPinned tRun)) ∧ ((at_ 5 (tPinned tRun)).slot 5).pin = some ⟨.M, 4, 120⟩ ∧
      (at_ 5 (tPinned tRun)).renewal.state ≠ .armed) := by
  unfold State.Holds State.EngineIdle
  refine ⟨rfl, ?_⟩; dsimp only; and_intros <;> decide +kernel

/-! ### Checking -/

theorem witness_authenticatorCheckTable :
    let tag := tagOver (tRun.journal.keyAt 0 0) 0 1 42 []
    let s (live : Bool) (key : Option (Nat × Fin 3)) :=
      tEngine (.check live (.authenticator 42 [] tag) key) (tRenew (tChecking .authenticator) tRun)
    (s false none).engine = some (.check false (.authenticator 42 [] tag) none) ∧
    ((s true (some (1, 0))).engine = some (.check true (.authenticator 42 [] tag) (some (1, 0))) ∧
      (s true (some (1, 0))).supply.run = .run ∧
      ∃ g bank, some (1, (0 : Fin 3)) = some (g, bank) ∧
        tagOver ((s true (some (1, 0))).journal.keyAt 0 bank) 0 g 42 [] = tag) ∧
    ((s true none).engine = some (.check true (.authenticator 42 [] tag) none) ∧
      ¬ ∃ (g : Nat) (bank : Fin 3), (none : Option (Nat × Fin 3)) = some (g, bank)) := by
  refine ⟨rfl, ⟨rfl, rfl, ⟨1, 0, rfl, rfl⟩⟩, ⟨rfl, ?_⟩⟩
  rintro ⟨g, bank, h⟩
  cases h

theorem witness_unwrapTable :
    let r (required : Bool) : StepRecord := ⟨0, required, .install 5 5 0 none none none none, []⟩
    let s (live required : Bool) (key : Option (Nat × Fin 3)) :=
      tEngine (.check live (.unwrap 0 5 5 0) key) (tRenew { tChecking (.unwrap 0) with buffer := [r required] } tRun)
    (∀ live required key, (s live required key).engine = some (.check live (.unwrap 0 5 5 0) key) ∧
      (s live required key).renewal.checking = some (.unwrap 0) ∧ (s live required key).renewal.buffer[0]? = some (r required) ∧
      (s live required key).supply.run = .run ∧ (r required).required = required) := fun _ _ _ => ⟨rfl, rfl, rfl, rfl, rfl⟩

/-! ### The journal -/

theorem witness_waitRecordCompletes :
    let busy (s : State) := tEngine (.check false (.authenticator 1 [] 0) none) s
    let c := busy (tQueue [⟨.append (.ceiling 5 4 3100 none), .engine 5⟩]
      (tSlot 5 { tIssue 3000 3000 LIMIT .live with wait := some ⟨.ceiling 4 3100, .M, [.L]⟩ } tRun))
    let f := busy (tQueue [⟨.append (.floor 9 8 600 none), .engine 9⟩]
      (tSlot 9 { tAccept with wait := some ⟨.floor 8 600 .current, .M, [.L]⟩ } tRun))
    (c.engine.isSome = true ∧ c.journal.toCopy = none ∧ c.journal.place = [] ∧
      (c.slot 5).current.map (·.counters) = some (.issue 3000 3000 LIMIT) ∧
      (c.slot 5).wait = some ⟨.ceiling 4 3100, .M, [.L]⟩) ∧
    (f.engine.isSome = true ∧ f.journal.toCopy = none ∧ f.journal.place = [] ∧
      (f.slot 9).current = some ⟨8, .live, 50, some 2000, .floor 570 512, 0, false, false⟩ ∧
      (f.slot 9).wait = some ⟨.floor 8 600 .current, .M, [.L]⟩) := by decide +kernel

theorem witness_armAndDisarmComplete :
    let busy (s : State) := tEngine (.issue .L 5 4 3001 false 1) s
    let a := busy (tQueue [⟨.append (.arm 42 [5, 9] none [.applied]), .checkArm⟩] (tRenew (tChecking .arm) tRun))
    let d := busy (tQueue [⟨.append (.disarm 42), .disarm⟩] ((tRenew { tBatch .armed with disarm := true } tRun).setPort .M
      { tRun.portM with request := some (.cancel 42), reply := .notReady }))
    (a.engine.isSome = true ∧ a.journal.toCopy = none ∧ a.journal.place = [] ∧ a.canceller = none) ∧
    let c := a.setPort .M { a.portM with request := some (.cancel 42), reply := .notReady }
    (d.engine.isSome = true ∧ d.journal.toCopy = none ∧ d.journal.place = [] ∧ d.canceller = some .M) ∧
    (c.engine.isSome = true ∧ c.journal.toCopy = none ∧ c.journal.place = [] ∧ c.canceller = some .M ∧ c.supply.run = .run) := by
  decide +kernel

/-- Batch 42 in COMMITTING with the hold granted, at a stage of its commit and with one slot computed. -/
def tCommit (stage : CommitStage) (b : Body) (r : Requester) : State :=
  tQueue [⟨.append b, r⟩]
    { tRenew (tBatch .committing) tRun with
      arbiter := { tRun.arbiter with hold := .granted }
      commit := some ⟨100, false, stage, [⟨9, .accept, .both, .both, tAccept.policy, tAccept.current, none, true⟩], none, []⟩ }

theorem witness_commitEndMakesTheBatchVisible :
    let s := tCommit .ending (.commitEnd 42) .commitEnd
    s.journal.queue = ⟨.append (.commitEnd 42), .commitEnd⟩ :: [] ∧ s.journal.toCopy = none ∧ s.journal.place = [] ∧
    (∃ c, s.commit = some c ∧ c.rolling = false ∧ c.lifecycle = none ∧ (c.slots.map fun x => x.slot).Nodup) ∧
    s.engine = none ∧ s.arbiter = { s.arbiter with
      resumed := [], hold := .granted, waitM := false, waitL := false, checking := none } := by
  refine ⟨rfl, by decide +kernel, rfl, ⟨_, rfl, rfl, rfl, by decide⟩, rfl, rfl⟩

theorem witness_commitRecordsShowNothing :
    let s := tCommit .begin (.commitBegin 42 100) .commitBegin
    let r := tCommit .records (.slot 9 (some 42) .delivered) (.commitRecord true)
    (s.journal.toCopy = none ∧ (∀ e ∈ s.journal.place, e.requester.ofBatch = false) ∧ s.arbiter.hold = .granted) ∧
    (r.journal.toCopy = none ∧ (∀ e ∈ r.journal.place, e.requester.ofBatch = false) ∧ r.arbiter.hold = .granted ∧
      ∃ last, Requester.commitRecord true = .commitRecord last) := by
  refine ⟨by decide +kernel, ⟨by decide +kernel, by decide +kernel, rfl, ⟨_, rfl⟩⟩⟩

theorem witness_writeFailures :
    let one := tQueue [⟨.append (.time 164), .time⟩] tRun
    let two := { one with journal := { one.journal with failures := 1 } }
    let owned := tSlot 5 { tIssue 3000 3000 LIMIT .live with wait := some ⟨.ceiling 4 3100, .M, [.L]⟩ } two
    (one.journal.failures = 0 ∧ one.journal.toCopy = none) ∧ (two.supply.run = .run ∧ two.journal.failures ≠ 0) ∧
    (tIn .flush two).supply.run = .flush ∧ (tRenew (tBatch .staging) two).renewal.state = .staging ∧
    ((tRenew (tBatch .armed) (tHeld two)).renewal.state = .armed ∧ (tRenew (tBatch .armed) (tHeld two)).arbiter.hold = .requested) ∧
    (owned.slot 5).wait = some ⟨.ceiling 4 3100, .M, [.L]⟩ ∧
    (tQueue [⟨.bankWrite 5 1 4 0, .checkBank true 5⟩] tRun).journal.failures = 0 := by decide +kernel

theorem witness_carryForwardCopies :
    let s (p : Nat) := tQueue [⟨.append (.time 164), .time⟩] { tRun with journal := { tRun.journal with writePosition := p } }
    (tCopy 511 [0]).journal.toCopy = some (.made 0 (.lifecycle .factory 0 none)) ∧ (tCopy 511 [0]).journal.writePosition < 512 ∧
    (s 4).journal.toCopy = none := ⟨tCopy_toCopy, by decide, by decide +kernel⟩

/-! ### Further clauses -/

theorem witness_startUp_causes_not_due :
    tRun.supply.rstnLow = false ∧ tRun.supply.inRange = true ∧
    (∀ low inRange, ∃ s : State, s.supply.rstnLow = low ∧ s.supply.inRange = inRange) :=
  ⟨rfl, rfl, fun low inRange => ⟨.aborted [] [] [] { tRun.supply with rstnLow := low, inRange := inRange }, rfl, rfl⟩⟩

/-- The part with the warning held, in a run state. -/
def tWarned (r : RunState) : State := { tRun with supply := { tRun.supply with warning := true, run := r } }

theorem witness_warning_in_every_run_state :
    (∀ r : RunState, (tWarned r).supply.warning = true ∧ (tWarned r).supply.run = r ∧ (tIn r tRun).supply.warning = false ∧
      (tIn r tRun).supply.run = r) ∧
    (let s (e : Erase) (q : List Entry) := tQueue q { tWarned .flush with supply := { (tWarned .flush).supply with erase := e } }
     (s .none []).supply.erase = .none ∧ (s .complete []).supply.erase = .complete ∧
     (s (.at 0 0) [⟨.bankErase 0 0, .erase⟩]).eraseBusy = true ∧
     ((s (.at 0 0) []).eraseBusy = false ∧ (s (.at 0 0) []).eraseItem 0 0 = some (.bankErase 0 0))) := by
  refine ⟨fun r => ⟨rfl, rfl, rfl, rfl⟩, by decide +kernel⟩

theorem witness_repeated_start :
    let s (r : PortRecord) := tRun.setPort .M r
    let open_ := (tFrame 0x10 [5, 0] tRun).portM
    (open_.framing = .write ∧ open_.frameComplete = true ∧ open_.buffer.command.isSome = true) ∧
    ((s { open_ with byteCount := 1 }).portM.framing = .write ∧ (s { open_ with byteCount := 1 }).portM.frameComplete = false) ∧
    (s { open_ with framing := .read }).portM.framing = .read ∧
    ((tIn .quiescent tRun).portM.framing = .idle ∧ (tIn .quiescent tRun).acknowledges = false) := by decide +kernel

set_option maxRecDepth 100000 in
/-- The worked payloads of BATCH_STEP (chapter 11) and, of each check that fails, one payload. A notify map with a bit above bit 1 set is
BAD_FIELD. -/
theorem test_batch_step_frames :
    let policy (slot stride map : Byte) : List Byte := [0, 2, 0xA1, slot, 0, stride, 0, 0, 0, 0, 0, 0, 0, map]
    batchStepFrame (policy 5 1 3) = .ok ⟨0, false, .policy 5 ⟨1, 0, 0, 0, 0, .carryOn⟩ none (some ⟨true, true⟩), policy 5 1 3⟩ ∧
    batchStepFrame (policy 5 1 4) = .error .badField ∧ batchStepFrame (policy 5 0 3) = .error .badField ∧
    batchStepFrame (policy 24 1 3) = .error .noSlot ∧ batchStepFrame [0, 3, 0x11, 5] = .error .badField ∧
    batchStepFrame ([7, 1, 3, 9, 0, 8] ++ List.replicate 24 0) =
      .ok ⟨7, true, .install 9 8 0 none none none none, [7, 1, 3, 9, 0, 8] ++ List.replicate 24 0⟩ ∧
    batchStepFrame ([7, 1, 3, 9, 0, 0] ++ List.replicate 24 0) = .error .badField ∧
    batchStepFrame [0, 4, 1, 9] = .ok ⟨0, false, .endGrace 9, [0, 4, 1, 9]⟩ ∧
    batchStepFrame [0, 5, 0, 1, 7] = .ok ⟨0, false, .lifecycle .operational (some 7), [0, 5, 0, 1, 7]⟩ ∧
    batchStepFrame [0, 5, 0, 1, 8] = .error .badField ∧
    batchStepFrame [0, 5, 2, 2] = .ok ⟨0, true, .lifecycle .retired none, [0, 5, 2, 2]⟩ ∧
    batchStepFrame [0, 6, 1, 5] = .error .badField :=
  ⟨rfl, rfl, rfl, rfl, rfl, rfl, rfl, rfl, rfl, rfl, rfl, rfl⟩

/-- An operation of port L in the engine. -/
def tBusy (s : State) : State := tEngine (.issue .L 5 4 3001 false 1) s

theorem witness_batchClose_with_the_engine_busy :
    let s := tBusy (tClose [tClear5] 41)
    s.Holds .M 0x32 ∧ s.AtRest ∧ s.BatchPort .M ∧ s.engine.isSome = true ∧ s.renewal.state = .staging ∧
    s.renewal.buffer.length = s.renewal.count ∧ ∀ f ∈ s.f0, f < s.renewal.sequence := by
  unfold State.Holds State.BatchPort State.AtRest; decide +kernel

/-- CANCEL of an armed batch with the engine free and the hold requested behind an operation in the engine's charge, and of a batch in
CHECKING whose bank write waits behind a TIME record. -/
theorem witness_cancel_behind_an_operation :
    let s := { tHeld (tCancel (tRenew (tBatch .armed) tRun)) with engine := none }
    let q := tQueue [⟨.append (.time 164), .time⟩, ⟨.bankWrite 5 0 5 0, .checkBank true 5⟩]
      (tCancel (tRenew (tChecking .images) tRun))
    (s.Holds .M 0x35 ∧ s.AtRest ∧ s.BatchPort .M ∧ s.renewal.state = .armed ∧ s.renewal.sequence = 42 ∧
      s.arbiter.hold ≠ .granted ∧ s.arbiter.resumed = [] ∧ s.arbiter.checking = none ∧ s.arbiter.waitM = false ∧
      s.arbiter.waitL = false) ∧
    (q.Holds .M 0x35 ∧ q.AtRest ∧ q.BatchPort .M ∧ q.renewal.state = .checking ∧ q.renewal.checking ≠ some .arm ∧
      q.journal.queue.length ≤ 8) := by
  unfold State.Holds State.BatchPort State.AtRest; decide +kernel

theorem witness_resumed_operations :
    let s (r : Resumed) := { tRun with arbiter := { Arbiter.start with resumed := [r] } }
    ∀ r, (s r).engine = none ∧ (s r).arbiter.hold ≠ .granted ∧ (s r).arbiter.resumed = r :: [] := fun _ => ⟨rfl, nofun, rfl⟩

/-- The FLOOR record that consumes batch sequence `v` in service. -/
def tConsume (live : Bool) (v : Nat) (st : CellState) : State :=
  tQueue [⟨.append (.floor 0 1 v none), .checkFloor live⟩]
    (tSlot 0 { tSlot0 with current := some ⟨1, st, 0, none, .floor 41 41, 0, false, false⟩ }
      (tRenew (if live then tChecking .floorWrite else Renewal.idle) tRun))

theorem witness_the_sequence_is_consumed :
    ∀ live, ∀ v ∈ [42, LIMIT], ∀ st, (tConsume live v st).journal.queue = ⟨.append (.floor 0 1 v none), .checkFloor live⟩ :: [] ∧
      (tConsume live v st).journal.toCopy = none ∧ (tConsume live v st).journal.place = [] ∧
      ((tConsume live v st).slot 0).current = some ⟨1, st, 0, none, .floor 41 41, 0, false, false⟩ := by
  intro live v _ st
  refine ⟨rfl, ?_, rfl, rfl⟩
  cases live <;> cases st <;> rfl

/-- A result of a batch that has ended, with nothing of it left; and the steps of a batch: none, one that fails required or optional, an
INSTALL and a CLEAR that pass, and the life-cycle steps. -/
theorem witness_steps :
    let r (required : Bool) (part : StepPart) : StepRecord := ⟨0, required, part, []⟩
    let s (x : StepRecord) := tRenew { tChecking .floorWrite with buffer := [x], result := ⟨42, .checking, []⟩ } tRun
    let install := StepPart.install 9 9 0 none none none none
    (let e := tEngine (.check false (.unwrap 0 5 5 0) none) tRun
     e.engine = some (.check false (.unwrap 0 5 5 0) none) ∧ e.renewal.checking = none ∧ e.renewal.buffer = []) ∧
    (∀ q, (s (r q (.clear 0))).renewal.buffer[0]? = some (r q (.clear 0)) ∧ tRun.stepFails (.clear 0) = some .slot0) ∧
    tRun.stepFails install = none ∧ tRun.stepFails (.clear 9) = none ∧ tRun.stepFails (.clear 10) = some .role ∧
    tRun.stepFails (.endGrace 9) = none ∧ tRun.stepFails (.endGrace 5) = some .role ∧
    (tSlot 9 { tAccept with prior := none } tRun).stepFails (.endGrace 9) = some .grace ∧
    tRun.stepFails (.install 9 8 0 none none none none) = some .gen ∧ tRun.stepFails (.install 9 9 0 none (some 1) none none) = some .role ∧
    tRun.stepFails (.install 10 1 0 none none none none) = some .define ∧
    tRun.stepFails (.install 0 2 0 none none none (some Policy.renewal)) = some .slot0 ∧
    tRun.stepFails (.lifecycle .retired none) = none ∧ tRun.stepFails (.lifecycle .operational (some 0)) = some .lifecycle ∧
    (s (r true (.clear 9))).renewal.buffer.length ≤ 1 ∧ (tAccept.freeBank = 1) := by
  refine ⟨⟨rfl, rfl, rfl⟩, fun q => ⟨rfl, by decide +kernel⟩, ?_⟩
  decide +kernel

theorem witness_waitRecord_of_a_prior :
    let s (c : Slot) (v : Nat) := tBusy (tQueue [⟨.append (.floor 9 7 v none), .engine 9⟩]
      (tSlot 9 { c with wait := some ⟨.floor 7 v .prior, .M, [.L]⟩ } tRun))
    (∀ c ∈ [tAccept, { tAccept with prior := none }], (s c 950).engine.isSome = true ∧ (s c 950).journal.toCopy = none ∧
      (s c 950).journal.place = [] ∧ (s c 950).journal.isLive (s c 950).journal.writePosition = false) ∧
    ((s tAccept 950).slot 9).prior = some ⟨7, 0, 900, 880, 350, 2⟩ ∧ (∀ o ∈ ((s { tAccept with prior := none } 950).slot 9).prior, o.generation ≠ 7) := by
  decide +kernel

/-- The bank write of slot 5's NEXT cell of generation 5 in service, in the stage given, with the steps decided as `outcomes`. -/
def tImage (g : CheckStage) (outcomes : List StepOutcome) (rest : List Entry) : State :=
  tBusy (tQueue (⟨.bankWrite 5 0 5 7, .checkBank true 5⟩ :: rest)
    (tSlot 5 { tIssue 3000 3000 LIMIT .live with next := some ⟨5, false, none, none, 0⟩ }
      (tRenew { tChecking g with buffer := [tClear5], result := ⟨42, .checking, outcomes⟩ } tRun)))

/-- A queue of TIME records. -/
def tTimes (n : Nat) : List Entry := List.replicate n ⟨.append (.time 164), .time⟩

theorem witness_images_and_steps_complete :
    let applied := [tClear5.applied fun _ => 0]
    (∀ g ∈ [CheckStage.images, .unwrap 0], ∀ o ∈ [[], [StepOutcome.applied]], ∀ n ∈ [0, 7],
      (tImage g o (tTimes n)).engine.isSome = true ∧ (tImage g o (tTimes n)).journal.toCopy = none ∧
      (tImage g o (tTimes n)).journal.place = [] ∧ ((tImage g o (tTimes n)).slot 5).next = some ⟨5, false, none, none, 0⟩ ∧
      (tImage g o (tTimes n)).supply.run = .run ∧ (tTimes n).length < 8 ∧
      ∀ j, j ≠ 5 → ∀ m ∈ ((tImage g o (tTimes n)).slot j).next, m.ready = true) ∧
    (∀ last, let s := tBusy (tQueue [⟨.append (.step 42 (tClear5.applied fun _ => 0)), .checkStep true last⟩]
        (tRenew { tChecking (.records []) with applied := applied } tRun))
      s.engine.isSome = true ∧ s.journal.toCopy = none ∧ s.journal.place = [] ∧ s.supply.run = .run) := by decide +kernel

/-- Batch 42 at the completion of its COMMIT_END, with the LIFECYCLE change given. -/
def tEnding (change : Option (LifeCycle × Option Nat)) : State :=
  let s := tCommit .ending (.commitEnd 42) .commitEnd
  { s with commit := s.commit.map fun c => { c with lifecycle := change } }

/-- A roll-forward at the completion of its COMMIT_END. -/
def tRolling (mark warning : Bool) : State :=
  let s := tQueue [⟨.append (.commitEnd 42), .commitEnd⟩] (tRenew (tBatch .committing) tRun)
  { s with
    supply := { s.supply with run := .starting, faultMark := mark, warning := warning }
    commit := some ⟨100, true, .ending, [], none, []⟩ }

/-- An item of slot 0 of the erase in service. -/
def tErasing (w : Write) (item : Fin 4) : State :=
  let s := tLife .retired (tBusy (tQueue [⟨w, .erase⟩] tRun))
  { s with supply := { s.supply with erase := .at 0 item } }

/-- The same with the key engine free, in the run state given, warned or marked. -/
def tErasingFree (r : RunState) (warning mark : Bool) (w : Write) (item : Fin 4) : State :=
  let s := tIn r { tErasing w item with engine := none }
  { s with supply := { s.supply with warning := warning, faultMark := mark } }

theorem witness_commitEnd_in_every_form :
    (∀ change ∈ [none, some (LifeCycle.operational, some 3), some (.retired, none)],
      (tEnding change).journal.queue = ⟨.append (.commitEnd 42), .commitEnd⟩ :: [] ∧ (tEnding change).journal.toCopy = none ∧
      (tEnding change).journal.place = [] ∧ (tEnding change).engine = none ∧ (tEnding change).supply.run = .run ∧
      (tEnding change).commit.map (·.lifecycle) = some change ∧ (tEnding change).commit.map (·.rolling) = some false ∧
      (tEnding change).arbiter = { (tEnding change).arbiter with
        resumed := [], hold := .granted, waitM := false, waitL := false, checking := none }) ∧
    (∀ mark warning, (tRolling mark warning).journal.toCopy = none ∧ (tRolling mark warning).supply.run = .starting ∧
      (tRolling mark warning).queueM = [] ∧ (tRolling mark warning).EngineIdle ∧
      (tRolling mark warning).commit = some ⟨100, true, .ending, [], none, []⟩) ∧
    (∀ x ∈ [(Write.bankErase 0 0, (0 : Fin 4)), (.append (.slot 0 none { SlotMeta.delivered with current := none }), 3)],
      let s := tErasing x.1 x.2
      s.journal.toCopy = none ∧ s.eraseItem 0 x.2 = some x.1 ∧ s.journal.place = [] ∧ s.supply.erase = .at 0 x.2 ∧
      s.supply.run = .run ∧ s.engine.isSome = true ∧ s.journal.Canonical) := by
  unfold State.EngineIdle Journal.Canonical
  decide +kernel

/-- An item of the erase in service with the key engine free: in RUN, in FLUSH, and in stage 5 of start-up, warned and marked too. -/
theorem witness_erasing_free :
    ∀ y ∈ [(RunState.run, false, false), (.flush, true, false), (.starting, false, false), (.starting, true, false), (.starting, false, true)],
    ∀ x ∈ [(Write.bankErase 0 0, (0 : Fin 4)), (.append (.slot 0 none { SlotMeta.delivered with current := none }), 3)],
      let f := tErasingFree y.1 y.2.1 y.2.2 x.1 x.2
      f.journal.toCopy = none ∧ f.eraseItem 0 x.2 = some x.1 ∧ f.journal.place = [] ∧ f.supply.erase = .at 0 x.2 ∧
      f.EngineIdle ∧ f.supply.lifeCycle = .retired ∧ f.renewal.state = .idle ∧ f.supply.run = y.1 ∧ f.journal.queue = [⟨x.1, .erase⟩] := by
  unfold State.EngineIdle
  decide +kernel

theorem witness_commit_records :
    let due := tCommit .begin (.commitBegin 42 100) .commitBegin
    let bare := tRenew { tBatch .committing with applied := [] } due
    let y : Body := .slot 5 (some 42) .delivered
    let full : State := tQueue (⟨.append y, .commitRecord false⟩ :: tTimes 7) (tCommit .records y (.commitRecord false))
    let waits : State := { full with
      journal := { full.journal with place := [⟨.append y, .commitRecord false⟩] }
      commit := full.commit.map fun (c : Commit) => { c with rest := [y] } }
    (due.journal.place = [] ∧ due.commit.isSome = true ∧ due.supply.run = .run ∧ due.arbiter.hold = .granted ∧
      (due.compute 100 due.renewal.sequence due.renewal.applied).2.2 ≠ []) ∧
    (bare.journal.toCopy = none ∧ (bare.compute 100 bare.renewal.sequence bare.renewal.applied).2.2 = []) ∧
    (waits.journal.toCopy = none ∧ (∀ e ∈ waits.journal.place, e.requester.ofBatch = false) ∧ waits.arbiter.hold = .granted ∧
      (tTimes 7).length = 7 ∧ waits.commit.map (·.rest) = some [y] ∧ waits.commit.map (·.stage) = some .records) := by
  decide +kernel

/-- A POLICY and an INSTALL of an ISSUE and of an ACCEPT slot, inside and outside the window that the commit leaves. -/
theorem witness_computes :
    let y (stride grace : Nat) : Policy := ⟨stride, 0, 100, grace, 20, .carryOn⟩
    (tAccept.policy = some (y 64 300) ∧ tIssue 3000 3000 LIMIT .live ≠ tAccept) ∧
    (tAccept.current.map (·.counters) = some (.floor 570 512) ∧ 570 < 512 + (y 64 0).stride ∧ 512 + (y 58 0).stride ≤ 570) ∧
    (tAccept.prior = some ⟨7, 0, 900, 880, 350, 2⟩ ∧ 900 < 880 + (y 21 0).stride ∧ 880 + (y 20 0).stride ≤ 900) ∧
    ((some (y 64 300) : Option Policy) = some (y 64 300) ∧ (tIssue 3000 3000 LIMIT .live).role = .issue) := by decide +kernel

/-- A first failure of an append behind which a live record must be copied. -/
theorem witness_failed_copy :
    (tCopy 511 [0]).journal.failures = 0 ∧ (tCopy 511 [0]).journal.toCopy.isSome = true ∧
    (tCopy 511 [0]).journal.writePosition < 512 ∧ ∃ a < 512, (tCopy 511 [0]).journal.isLive a = false := by
  refine ⟨rfl, by rw [tCopy_toCopy]; rfl, by decide, 1, by decide, rfl⟩

theorem witness_second_failure_in_starting :
    let s := tIn .starting (tQueue [⟨.append (.commitEnd 42), .commitEnd⟩] (tRenew (tBatch .committing) tRun))
    let f := { s with journal := { s.journal with failures := 1 } }
    f.journal.queue = ⟨.append (.commitEnd 42), .commitEnd⟩ :: [] ∧ f.journal.failures ≠ 0 ∧ f.supply.run = .starting ∧
    f.renewal.state = .committing ∧ f.commit = none ∧ f.queueM = [] := by decide +kernel

/-- The part of `tRun` with a NEXT cell in slot 9, and a tick to come. -/
def tKeys : State := (tSlot 9 { tAccept with next := some ⟨9, true, none, none, 1⟩ } tRun).withPending [.tick]

theorem tKeys_slot (i : Fin 24) : i = 0 ∨ i = 5 ∨ i = 9 ∨ tKeys.slot i = Slot.blank := by revert i; decide +kernel

theorem tKeys_keysLawful : tKeys.KeysLawful := by
  intro _
  have none_ {α : Type} {p : α → Prop} : ∀ a ∈ (none : Option α), p a := by intro a h; cases h
  have keys : ∀ i, (tKeys.slot i).Lawful ∧ (tKeys.slot i).WaitLawful := by
    intro i
    rcases tKeys_slot i with rfl | rfl | rfl | h
    · rw [show tKeys.slot 0 = tSlot0 by decide +kernel]
      exact ⟨⟨⟨by decide, by rintro k ⟨⟩; unfold Counters.Lawful; decide +kernel, none_, fun _ _ => none_⟩, none_⟩, trivial⟩
    · rw [show tKeys.slot 5 = tIssue 3000 3000 LIMIT .live by decide +kernel]
      exact ⟨⟨⟨by decide, by rintro k ⟨⟩; unfold Counters.Lawful; decide +kernel, none_, fun _ _ => none_⟩, none_⟩, trivial⟩
    · rw [show tKeys.slot 9 = { tAccept with next := some ⟨9, true, none, none, 1⟩ } by decide +kernel]
      exact ⟨⟨⟨by decide, by rintro k ⟨⟩; unfold Counters.Lawful; decide, by rintro k ⟨⟩; unfold Counters.Lawful; decide,
        by rintro k ⟨⟩ o ⟨⟩; decide⟩, by rintro n ⟨⟩; exact ⟨by rintro k ⟨⟩; decide, by rintro k ⟨⟩; decide⟩⟩, trivial⟩
    · rw [h]; exact ⟨⟨⟨by decide, none_, none_, none_⟩, none_⟩, trivial⟩
  refine ⟨rfl, rfl, rfl, keys, ⟨by decide +kernel, by decide +kernel, ?_⟩, trivial, ?_, ?_⟩
  · intro p; cases p <;> exact ⟨(by intro h; cases h), (by intro h; cases h), trivial⟩
  · exact ⟨(by intro h; cases h), rfl, rfl, rfl, rfl⟩
  · have entries : tKeys.journal.queue ++ tKeys.journal.place = [] := rfl
    have records : tKeys.journal.disarmsOf = [] := rfl
    have waits : ∀ p, (tKeys.port p).request = none := by intro p; cases p <;> rfl
    refine ⟨?_, ?_, ?_, ?_, ?_, ?_, ?_, ?_, ?_, ?_, ?_, ?_⟩
    · intro h; cases h
    · decide +kernel
    · intro c h; cases h
    · intro h; cases h
    · intro h; cases h
    · rw [records]; decide
    · rw [records]; exact fun h => (h rfl).elim
    · intro p; rw [waits p]; trivial
    · intro h hh; cases hh
    · rw [entries]; intro e h; cases h
    · intro x h; cases h
    · intro x h; cases h

theorem witness_keysLaw :
    tKeys.KeysLawful ∧ tKeys.journal.Lawful ∧ tKeys.supply.run ≠ .starting ∧ (∃ t, step tKeys = .next t) ∧
    (∃ k o x, (tKeys.slot 9).current = some k ∧ (tKeys.slot 9).prior = some o ∧ (tKeys.slot 9).next = some x) ∧
    (∃ k, (tKeys.slot 5).current = some k ∧ k.counters = .issue 3000 3000 LIMIT) := by
  refine ⟨tKeys_keysLawful, ⟨⟨rfl, rfl, rfl, rfl⟩, ?_⟩, by decide, ⟨_, rfl⟩, ⟨_, _, _, rfl, rfl, rfl⟩, ⟨_, rfl, rfl⟩⟩
  unfold Journal.Bounded; decide +kernel

end
end

section
/-! PROOFS. The key engine (chapter 3): the refusals of MAKE_TAG, the event ISSUE, and the event TAG_COMPARISON. -/

namespace Sys2Proof.Machine

/-! ## Demands at the two queues -/

/-- A demand reaches a port's queue exactly where the set holds the port (R179). -/
theorem State.raise_queue (s : State) (w : PortSet) (d : Demand) (x : Port) :
    (s.raise w d).queue x = if w.has x then arrive (s.queue x) d else s.queue x := by
  cases x
  · exact s.raise_queueM w d
  · exact s.raise_queueL w d

@[simp] theorem State.setSlot_queue (s : State) (i : Fin 24) (c : Slot) (x : Port) : (s.setSlot i c).queue x = s.queue x := by
  cases x <;> rfl

@[simp] theorem State.raiseSlot_slot (s : State) (kind : DemandKind) (i j : Fin 24) (g : Nat) :
    (s.raiseSlot kind i g).slot j = s.slot j := s.raise_slot _ _ j

/-- A slot demand is routed by the notify map of its slot (R6, R179). -/
theorem State.raiseSlot_queue (s : State) (kind : DemandKind) (i : Fin 24) (g : Nat) (x : Port) :
    (s.raiseSlot kind i g).queue x =
      if (s.slot i).notifyMap.has x then arrive (s.queue x) ⟨kind, some i, some g, none, s.time.t⟩ else s.queue x :=
  s.raise_queue _ _ x

/-! ## What changes one slot and the demand queues alone -/

/-- `u` is `s` but for the contents of slot `i` and of the two demand queues. -/
def State.SameBesides (s : State) (i : Fin 24) (u : State) : Prop :=
  ∃ c queueM queueL, u = { s.setSlot i c with queueM := queueM, queueL := queueL }

namespace State.SameBesides

variable {s t u : State} {i : Fin 24}

theorem refl (s : State) (i : Fin 24) : s.SameBesides i s := ⟨s.slot i, s.queueM, s.queueL, by simp [State.setSlot, State.slot]⟩

theorem trans (h : s.SameBesides i t) (h' : t.SameBesides i u) : s.SameBesides i u := by
  obtain ⟨_, _, _, rfl⟩ := h
  obtain ⟨c, qm, ql, rfl⟩ := h'
  exact ⟨c, qm, ql, by simp [State.setSlot]⟩

theorem setSlot (s : State) (i : Fin 24) (c : Slot) : s.SameBesides i (s.setSlot i c) := ⟨c, s.queueM, s.queueL, rfl⟩

theorem raise (s : State) (i : Fin 24) (w : PortSet) (d : Demand) : s.SameBesides i (s.raise w d) := by
  refine ⟨s.slot i, (s.raise w d).queueM, (s.raise w d).queueL, ?_⟩
  unfold State.raise
  split <;> split <;> simp [State.setSlot, State.slot]

theorem frame (h : s.SameBesides i u) :
    u.engine = s.engine ∧ u.journal = s.journal ∧ u.arbiter = s.arbiter ∧ u.portM = s.portM ∧ u.portL = s.portL ∧
    u.renewal = s.renewal ∧ u.commit = s.commit ∧ u.time = s.time ∧ u.supply = s.supply := by
  obtain ⟨_, _, _, rfl⟩ := h
  exact ⟨rfl, rfl, rfl, rfl, rfl, rfl, rfl, rfl, rfl⟩

theorem slot_ne (h : s.SameBesides i u) {j : Fin 24} (hj : j ≠ i) : u.slot j = s.slot j := by
  obtain ⟨c, _, _, rfl⟩ := h
  exact s.slot_setSlot_ne hj.symm c

end State.SameBesides

/-! ## COUNTER_LOW and SPENT (R30, R31, R40, R41) -/

theorem State.evaluateLow_sameBesides (s : State) (i : Fin 24) : s.SameBesides i (s.evaluateLow i) := by
  unfold State.evaluateLow
  split
  · split
    · exact (State.SameBesides.setSlot s i _).trans (.raise _ i _ _)
    · exact .refl s i
  · exact .refl s i

theorem State.evaluateSpent_sameBesides (s : State) (i : Fin 24) : s.SameBesides i (s.evaluateSpent i) := by
  unfold State.evaluateSpent
  split
  · split
    · exact (State.SameBesides.setSlot s i _).trans (.raise _ i _ _)
    · exact .refl s i
  · exact .refl s i

/-- COUNTER_LOW arrives at a queue before SPENT (R116, R186). -/
theorem foldl_arrive_conditionDemands (i : Fin 24) (g t : Nat) (low spent : Bool) (q : List Demand) :
    (conditionDemands i g t low spent false false).foldl arrive q =
      let warned := if low then arrive q ⟨.counterLow, some i, some g, none, t⟩ else q
      if spent then arrive warned ⟨.spent, some i, some g, none, t⟩ else warned := by
  cases low <;> cases spent <;> rfl

/-- Whether a CURRENT cell becomes SPENT (R30, R40). -/
def Current.spentDue (k : Current) : Bool := decide (k.state = .live) && k.counters.atLimit

section
variable {s : State} {i : Fin 24} {k : Current}

theorem Slot.current_eta {c : Slot} (h : c.current = some k) : { c with current := some k } = c := by rw [← h]

/-- The mark of COUNTER_LOW (R31, R41). -/
theorem State.evaluateLow_slot (h : (s.slot i).current = some k) :
    (s.evaluateLow i).slot i =
      { s.slot i with current := some { k with warned := k.warned || counterLowDue (s.slot i).policy k } } := by
  cases due : counterLowDue (s.slot i).policy k
  · simp [State.evaluateLow, h, due, Slot.current_eta h]
  · simp [State.evaluateLow, h, due]

/-- The demand COUNTER_LOW, by the notify map (R31, R41). -/
theorem State.evaluateLow_queue (h : (s.slot i).current = some k) (x : Port) :
    (s.evaluateLow i).queue x =
      if counterLowDue (s.slot i).policy k && (s.slot i).notifyMap.has x
      then arrive (s.queue x) ⟨.counterLow, some i, some k.generation, none, s.time.t⟩ else s.queue x := by
  cases due : counterLowDue (s.slot i).policy k
  · simp [State.evaluateLow, h, due]
  · simp [State.evaluateLow, h, due, State.raiseSlot_queue]

/-- The state SPENT (R30, R40). -/
theorem State.evaluateSpent_slot (h : (s.slot i).current = some k) :
    (s.evaluateSpent i).slot i =
      { s.slot i with current := some { k with state := if k.spentDue then .spent else k.state } } := by
  by_cases due : k.state = .live ∧ k.counters.atLimit = true
  · simp [State.evaluateSpent, h, due, Current.spentDue]
  · simp [State.evaluateSpent, h, due, Current.spentDue, Slot.current_eta h]

/-- The demand SPENT, by the notify map (R30, R40). -/
theorem State.evaluateSpent_queue (h : (s.slot i).current = some k) (x : Port) :
    (s.evaluateSpent i).queue x =
      if k.spentDue && (s.slot i).notifyMap.has x
      then arrive (s.queue x) ⟨.spent, some i, some k.generation, none, s.time.t⟩ else s.queue x := by
  by_cases due : k.state = .live ∧ k.counters.atLimit = true
  · simp [State.evaluateSpent, h, due, Current.spentDue, State.raiseSlot_queue]
  · simp [State.evaluateSpent, h, due, Current.spentDue]

/-- A cell after both evaluations: warned where COUNTER_LOW was due, SPENT at the limit. -/
theorem State.evaluateCounter_slot (h : (s.slot i).current = some k) :
    ((s.evaluateLow i).evaluateSpent i).slot i =
      { s.slot i with current := some { k with
          warned := k.warned || counterLowDue (s.slot i).policy k
          state := if k.spentDue then .spent else k.state } } := by
  have low := State.evaluateLow_slot h
  rw [State.evaluateSpent_slot (by rw [low]), low]
  rfl

/-- The queues after both evaluations: COUNTER_LOW arrives first and SPENT after it, by the notify map. -/
theorem State.evaluateCounter_queue (h : (s.slot i).current = some k) (x : Port) :
    ((s.evaluateLow i).evaluateSpent i).queue x =
      if (s.slot i).notifyMap.has x
      then (conditionDemands i k.generation s.time.t (counterLowDue (s.slot i).policy k) k.spentDue false false).foldl
        arrive (s.queue x)
      else s.queue x := by
  have low := State.evaluateLow_slot h
  have time : (s.evaluateLow i).time = s.time := by
    obtain ⟨_, _, _, e⟩ := s.evaluateLow_sameBesides i
    rw [e]; rfl
  rw [State.evaluateSpent_queue (by rw [low]), State.evaluateLow_queue h, low, time]
  have spent : Current.spentDue { k with warned := k.warned || counterLowDue (s.slot i).policy k } = k.spentDue := rfl
  rw [spent, foldl_arrive_conditionDemands]
  cases (s.slot i).notifyMap.has x <;> simp

end

/-! ## An acceptance within the window (R37, R52, R53) -/

theorem State.acceptFloor_sameBesides (s : State) (i : Fin 24) (g : Nat) (pos : Position) (c : Nat) :
    s.SameBesides i (s.acceptFloor i g pos c) := by
  unfold State.acceptFloor
  split
  · split
    · split
      · exact (State.SameBesides.setSlot s i _).trans
          ((State.evaluateLow_sameBesides _ i).trans (State.evaluateSpent_sameBesides _ i))
      · exact .refl s i
    · exact .refl s i
  · split
    · split
      · exact .setSlot s i _
      · exact .refl s i
    · exact .refl s i

/-- Under PRIOR the floor takes the counter, and nothing is raised. -/
theorem State.acceptFloor_prior {s : State} {i : Fin 24} {o : Prior} (h : (s.slot i).prior = some o) (c : Nat) :
    s.acceptFloor i o.generation .prior c = s.setSlot i { s.slot i with prior := some { o with f := c } } := by
  simp [State.acceptFloor, h]

section
variable {s : State} {i : Fin 24} {k : Current} {f q : Nat} (h : (s.slot i).current = some k) (hk : k.counters = .floor f q)
include h hk

theorem State.acceptFloor_current (c : Nat) :
    s.acceptFloor i k.generation .current c =
      ((s.setSlot i { s.slot i with current := some { k with counters := .floor c q } }).evaluateLow i).evaluateSpent i := by
  simp [State.acceptFloor, h, hk, Counters.floors]

/-- Under CURRENT the floor takes the counter, and the cell is evaluated with it. -/
theorem State.acceptFloor_current_slot (c : Nat) :
    (s.acceptFloor i k.generation .current c).slot i =
      let k' := { k with counters := .floor c q }
      { s.slot i with current := some { k' with
          warned := k.warned || counterLowDue (s.slot i).policy k'
          state := if k'.spentDue then .spent else k.state } } := by
  rw [State.acceptFloor_current h hk, State.evaluateCounter_slot (congrArg Slot.current (s.slot_setSlot i _)), State.slot_setSlot]

theorem State.acceptFloor_current_queue (c : Nat) (x : Port) :
    (s.acceptFloor i k.generation .current c).queue x =
      let k' := { k with counters := .floor c q }
      if (s.slot i).notifyMap.has x
      then (conditionDemands i k.generation s.time.t (counterLowDue (s.slot i).policy k') k'.spentDue false false).foldl
        arrive (s.queue x)
      else s.queue x := by
  rw [State.acceptFloor_current h hk, State.evaluateCounter_queue (congrArg Slot.current (s.slot_setSlot i _)),
    State.slot_setSlot, State.setSlot_queue, State.setSlot_time]

end

/-! ## A key command granted and refused as it is taken -/

section
variable {s : State} {p : Port} {code : Byte}

/-- Answering a port leaves an idle engine at rest. -/
theorem State.EngineIdle.atRest_answered (h : s.EngineIdle) (run : s.supply.run ≠ .flush) (e : Status) (b : List Byte) :
    ((s.answered p e b).turnTo p).AtRest := by
  have idle : ((s.answered p e b).turnTo p).EngineIdle := by cases p <;> exact h
  exact ⟨idle.grant_none, by cases p <;> exact run⟩

/-- A key command that an idle engine refuses at its grant: the port is answered and the turn record names it (R59, R65). -/
theorem settle_refused_at_grant {q : Request} {e : Status} (h : s.Holds p code) (idle : s.EngineIdle)
    (run : s.supply.run ≠ .flush)
    (he : State.enter ((s.setPort p ((s.port p).inFlight q)).turnTo p) p =
      ((s.setPort p ((s.port p).inFlight q)).turnTo p).refuse p e) :
    ((s.frameTaken p).handToArbiter p q).settle = (s.answered p e []).turnTo p :=
  settle_handToArbiter p q idle (he.trans (refuse_inFlight h q e)) (idle.atRest_answered run e [])

/-! ## MAKE_TAG (R49) -/

theorem execMakeTag_of_holds {slot : Nat} {expected : Option Nat} (h : s.Holds p 0x10)
    (frame : makeTagFrame (s.payload p) = .ok (slot, expected)) :
    exec (.makeTag p) s = .next ((s.frameTaken p).handToArbiter p (.makeTag slot expected)).settle := by
  change Host.Outcome.next _ = _
  rw [atStop_of_holds _ h (by decide)]
  simp [State.takeMakeTag, frame, State.checked]

/-- The checks read the supply monitor and the slots, which neither the request in flight nor the turn record is part of. -/
theorem makeTagChecks_inFlight (r : PortRecord) (slot : Nat) (expected : Option Nat) :
    ((s.setPort p r).turnTo p).makeTagChecks p slot expected = s.makeTagChecks p slot expected := by
  cases p <;> rfl

theorem enter_makeTag (slot : Nat) (expected : Option Nat) :
    State.enter ((s.setPort p ((s.port p).inFlight (.makeTag slot expected))).turnTo p) p =
      ((s.setPort p ((s.port p).inFlight (.makeTag slot expected))).turnTo p).enterMakeTag p slot expected := by
  cases p <;> rfl

/-- A MAKE_TAG granted as it is taken is answered with the refusal of the first check it fails (R49, R59). -/
theorem execMakeTag_refused {slot : Nat} {expected : Option Nat} {e : Status} (h : s.Holds p 0x10) (idle : s.EngineIdle)
    (run : s.supply.run ≠ .flush) (frame : makeTagFrame (s.payload p) = .ok (slot, expected))
    (fails : s.makeTagChecks p slot expected = .error e) :
    exec (.makeTag p) s = .next ((s.answered p e []).turnTo p) := by
  rw [execMakeTag_of_holds h frame, settle_refused_at_grant h idle run]
  rw [enter_makeTag, State.enterMakeTag, makeTagChecks_inFlight, fails]

end

section
variable {s : State} {p : Port}

@[simp] theorem slotIndex_val (i : Fin 24) : slotIndex i.val = some i := by simp [slotIndex]

theorem slotIndex_of_le {n : Nat} (h : 24 ≤ n) : slotIndex n = none := by simp [slotIndex, h]

theorem makeTagChecks_retired (life : s.supply.lifeCycle = .retired) (slot : Nat) (expected : Option Nat) :
    s.makeTagChecks p slot expected = .error .retired := by simp [State.makeTagChecks, life]

theorem makeTagChecks_fault (life : s.supply.lifeCycle ≠ .retired) (run : s.supply.run = .fault) (slot : Nat)
    (expected : Option Nat) : s.makeTagChecks p slot expected = .error .fault := by simp [State.makeTagChecks, life, run]

variable (life : s.supply.lifeCycle ≠ .retired) (run : s.supply.run ≠ .fault) (expected : Option Nat) {i : Fin 24}
include life run

theorem makeTagChecks_noSlot {slot : Nat} (h : 24 ≤ slot) : s.makeTagChecks p slot expected = .error .noSlot := by
  simp [State.makeTagChecks, life, run, slotIndex_of_le h]

theorem makeTagChecks_wrongRole (role : (s.slot i).role ≠ .issue) : s.makeTagChecks p i expected = .error .wrongRole := by
  simp [State.makeTagChecks, life, run, role]

variable (role : (s.slot i).role = .issue)
include role

theorem makeTagChecks_notUser (user : (s.slot i).userMap.has p = false) : s.makeTagChecks p i expected = .error .notUser := by
  simp [State.makeTagChecks, life, run, role, user]

variable (user : (s.slot i).userMap.has p = true)
include user

theorem makeTagChecks_noKey (cell : (s.slot i).current = none) : s.makeTagChecks p i expected = .error .noKey := by
  simp [State.makeTagChecks, life, run, role, user, cell]

variable {expected} {k : Current} (cell : (s.slot i).current = some k)
include cell

theorem makeTagChecks_genMoved (moved : ∃ g ∈ expected, g ≠ k.generation) :
    s.makeTagChecks p i expected = .error .genMoved := by
  obtain ⟨g, rfl, ne⟩ := moved
  simp [State.makeTagChecks, life, run, role, user, cell, ne]

/-- Past the check of the generation, the state of the cell decides. -/
theorem makeTagChecks_of_generation (same : ∀ g ∈ expected, g = k.generation) :
    s.makeTagChecks p i expected =
      if k.state = .expired then .error .expired else if k.state = .spent then .error .spent else .ok (i, k) := by
  have stays : expected.any (fun g => decide (g ≠ k.generation)) = false := by
    cases expected with
    | none => rfl
    | some g => simpa using same g rfl
  simp only [State.makeTagChecks, life, run, role, user, cell, stays, slotIndex_val]
  simp

end

/-- Settles O41: each clause is `execMakeTag_refused` at the check of R49 that its hypotheses fail. -/
theorem makeTagRefusals : Obligations.MakeTagRefusals := by
  intro p s slot expected holds idle flush frame
  have refused {e : Status} := execMakeTag_refused (e := e) holds idle flush frame
  refine ⟨fun life => refused (makeTagChecks_retired life _ _), fun life run => refused (makeTagChecks_fault life run _ _),
    fun life run above => refused (makeTagChecks_noSlot life run _ above), ?_⟩
  rintro i life run rfl
  refine ⟨fun role => refused (makeTagChecks_wrongRole life run _ role),
    fun role user => refused (makeTagChecks_notUser life run _ role user),
    fun role user cell => refused (makeTagChecks_noKey life run _ role user cell), ?_⟩
  intro k role user cell
  refine ⟨fun moved => refused (makeTagChecks_genMoved life run role user cell moved), fun same state => refused ?_,
    fun same state => refused ?_⟩
  · rw [makeTagChecks_of_generation life run role user cell same, if_pos state]
  · rw [makeTagChecks_of_generation life run role user cell same, if_neg (by simp [state]), if_pos state]

/-! ## ISSUE (R50) -/

theorem flagByte_single (b : Bool) : flagByte [b] = if b then 0x01 else 0x00 := by cases b <;> rfl

/-- Settles O43: the reply of R50 with its LAST flag read as a byte; the header block and the padding are those of `tagOver`. -/
theorem issueCompletesTheRequest : Obligations.IssueCompletesTheRequest := by
  intro s p i g v last bank engine
  change execIssue s = _
  simp only [execIssue, engine, issueReply, flagByte_single]
  rfl

/-! ## TAG_COMPARISON (R53) -/

section
variable {s : State} {p : Port} {i : Fin 24} {g c edge : Nat} {tag : Tag} {pos : Position} {bank : Fin 3}

theorem execTagComparison_of_compare (h : s.engine = some (.compare p i g c tag pos bank edge)) :
    exec .tagComparison s = .next (({ s with engine := none } : State).compareTag p i g c tag pos bank edge).settle := by
  change execTagComparison s = _
  rw [execTagComparison, h]

theorem compareTag_differs
    (h : tagOver (s.journal.keyAt i bank) i.val g c (checkTagMessage (s.port p).buffer.payload) ≠ tag) :
    s.compareTag p i g c tag pos bank edge = s.complete p .badTag [] := if_pos h

variable (h : tagOver (s.journal.keyAt i bank) i.val g c (checkTagMessage (s.port p).buffer.payload) = tag)
include h

theorem compareTag_within (hc : c < edge) :
    s.compareTag p i g c tag pos bank edge = (s.acceptFloor i g pos c).complete p .ok (acceptedReply pos g) :=
  (if_neg (not_not_intro h)).trans (if_pos hc)

theorem compareTag_beyond (hc : edge ≤ c) :
    s.compareTag p i g c tag pos bank edge = s.beginWait i p (.floor g c pos) :=
  (if_neg (not_not_intro h)).trans (if_neg (Nat.not_lt.mpr hc))

end

/-- In RUN an operation leaves the engine as the owner of a write wait, its record handed over (R57). -/
theorem beginWait_of_run {s : State} (run : s.supply.run = .run) (i : Fin 24) (p : Port) (r : WaitRecord) :
    s.beginWait i p r =
      (s.setSlot i { s.slot i with wait := some ⟨r, p, []⟩ }).handed (.append (r.body i)) (.engine i) := by
  have taken : s.handing ≠ .faulted := by
    by_cases room : s.journal.queue.length < 8 <;> simp [State.handing, run, room]
  rw [State.beginWait, if_neg taken, handOver_eq_handed (by simp [run]) (by simp [run])]

/-- In FAULT no operation leaves to wait (R58). -/
theorem beginWait_of_fault {s : State} (run : s.supply.run = .fault) (i : Fin 24) (p : Port) (r : WaitRecord) :
    s.beginWait i p r = s.complete p .fault [] := by
  have told : s.handing = .faulted := if_pos (.inl run)
  rw [State.beginWait, if_pos told, State.refuse]

/-- Settles O45: one clause per branch of `State.compareTag`. The acceptance changes slot `i` and the demand queues alone, and there it
is described by the position of the matched cell. -/
theorem tagComparisonTable : Obligations.TagComparisonTable := by
  intro s p i g c tag pos bank edge engine free msg computed position
  rw [execTagComparison_of_compare engine]
  refine ⟨fun differs => ?_, fun agrees within => ?_, fun agrees beyond run => ?_, fun agrees beyond fault => ?_⟩
  · rw [compareTag_differs (s := free) differs]
  · have accepted := free.acceptFloor_sameBesides i g pos c
    obtain ⟨engine, journal, arbiter, portM, portL, renewal, commit, time, supply⟩ := accepted.frame
    refine ⟨free.acceptFloor i g pos c, ?_, engine, journal, arbiter, portM, portL, renewal, commit, time, supply,
      fun j => accepted.slot_ne, ?_, ?_⟩
    · have reply : acceptedReply pos g = position :: beBytes 2 g := by cases pos <;> rfl
      rw [compareTag_within (s := free) agrees within, reply]
    · rintro o rfl prior rfl
      rw [State.acceptFloor_prior (s := free) prior]
      exact ⟨free.slot_setSlot i _, rfl, rfl⟩
    · rintro k f q rfl current rfl counters low full
      have due : low = counterLowDue (s.slot i).policy { k with counters := .floor c q } := by
        dsimp only [low]
        cases (s.slot i).policy <;> rfl
      rw [due]
      exact ⟨State.acceptFloor_current_slot (s := free) current counters c,
        State.acceptFloor_current_queue (s := free) current counters c⟩
  · rw [compareTag_beyond (s := free) agrees beyond, beginWait_of_run (s := free) run]
    rfl
  · rw [compareTag_beyond (s := free) agrees beyond, beginWait_of_fault (s := free) fault]

end Sys2Proof.Machine
end

section
/-! PROOFS. The batch port (chapter 4): how a batch command is taken, and the four that end at their take: BATCH_OPEN, BATCH_STEP,
BATCH_CLOSE and BATCH_RESULT. -/

namespace Sys2Proof.Machine

/-! ## A part at rest (R64) -/

/-- When the arbiter has no grant to make: the engine is busy or given to the commit, or no requester may be served. -/
theorem grant_eq_none_iff (s : State) :
    s.grant = none ↔ s.engine.isSome = true ∨ s.arbiter.hold = .granted ∨
      (s.arbiter.resumed = [] ∧ ¬ (s.arbiter.hold = .requested ∧ s.inCharge .M = false ∧ s.inCharge .L = false) ∧
        s.arbiter.checking = none ∧ (s.arbiter.nextPort = none ∨ s.arbiter.hold ≠ .none)) := by
  unfold State.grant
  by_cases busy : s.engine.isSome = true ∨ s.arbiter.hold = .granted
  · simp only [if_pos busy, true_iff]
    exact busy.imp_right .inl
  rw [if_neg busy, ← or_assoc, or_iff_right busy]
  cases resumed : s.arbiter.resumed with
  | cons => simp
  | nil =>
    by_cases hold : s.arbiter.hold = .requested ∧ s.inCharge .M = false ∧ s.inCharge .L = false
    · simp [hold]
    cases checking : s.arbiter.checking with
    | some c =>
      cases decide (s.arbiter.passed = 2) with
      | true => simp [hold]
      | false => cases s.arbiter.nextPort <;> cases decide (s.arbiter.hold = .none) <;> simp [hold]
    | none =>
      cases next : s.arbiter.nextPort with
      | none => simp [hold]
      | some p => by_cases held : s.arbiter.hold = .none <;> simp [hold, held]

section
variable {s t : State} {p : Port} {code : Byte}

/-- Whether a part is at rest depends on the engine, the arbiter, the engine's charge and the run state alone. -/
theorem State.AtRest.of_same (rest : s.AtRest) (engine : t.engine.isSome = s.engine.isSome) (arbiter : t.arbiter = s.arbiter)
    (charge : ∀ x, t.inCharge x = s.inCharge x) (supply : t.supply = s.supply) : t.AtRest := by
  obtain ⟨grant, run⟩ := rest
  rw [grant_eq_none_iff] at grant
  refine ⟨(grant_eq_none_iff t).mpr ?_, supply ▸ run⟩
  rw [engine, arbiter, charge, charge]
  exact grant

theorem State.AtRest.withRenewal (rest : s.AtRest) (r : Renewal) : ({ s with renewal := r } : State).AtRest :=
  rest.of_same rfl rfl (fun x => by cases x <;> rfl) rfl

/-- A port without a request has none in the engine's charge, and gets none there by a CANCEL in flight (R47). -/
theorem State.AtRest.setPort (rest : s.AtRest) (none_before : (s.port p).request = none) {r : PortRecord}
    (none_after : r.request = none ∨ ∃ q, r.request = some (.cancel q)) : (s.setPort p r).AtRest := by
  refine rest.of_same (by simp) (by simp) (fun x => ?_) (by simp)
  by_cases same : x = p
  · subst same
    have before : s.inCharge x = false := by simp [State.inCharge, none_before]
    have after : (s.setPort x r).inCharge x = false := by
      rcases none_after with none | ⟨q, cancel⟩
      · simp [State.inCharge, none]
      · simp [State.inCharge, cancel]
    rw [before, after]
  · have other : x = p.other := by cases p <;> cases x <;> simp_all [Port.other]
    simp [State.inCharge, other]

/-! ## A batch command at the batch port (R73, R194, R195) -/

theorem State.Holds.withRenewal (holds : s.Holds p code) (r : Renewal) : ({ s with renewal := r } : State).Holds p code := by
  cases p <;> exact holds

theorem windowReset_of_staging (staging : s.renewal.state = .staging) :
    s.windowReset = { s with renewal := { s.renewal with windowCount := 0 } } := if_pos staging

theorem windowReset_of_ne_staging (other : s.renewal.state ≠ .staging) : s.windowReset = s := if_neg other

/-- The window count is all that the checks of R73 change. -/
theorem windowReset_eq (s : State) : ∃ n, s.windowReset = { s with renewal := { s.renewal with windowCount := n } } := by
  by_cases staging : s.renewal.state = .staging
  · exact ⟨0, windowReset_of_staging staging⟩
  · exact ⟨s.renewal.windowCount, windowReset_of_ne_staging staging⟩

@[simp] theorem windowReset_state (s : State) : s.windowReset.renewal.state = s.renewal.state := by
  obtain ⟨n, e⟩ := windowReset_eq s
  rw [e]

@[simp] theorem windowReset_checking (s : State) : s.windowReset.renewal.checking = s.renewal.checking := by
  obtain ⟨n, e⟩ := windowReset_eq s
  rw [e]

@[simp] theorem windowReset_result (s : State) : s.windowReset.renewal.result = s.renewal.result := by
  obtain ⟨n, e⟩ := windowReset_eq s
  rw [e]

/-- The batch sequence is read from the header, which the window count is no part of. -/
@[simp] theorem windowReset_sequence (s : State) : s.windowReset.renewal.sequence = s.renewal.sequence := by
  obtain ⟨n, e⟩ := windowReset_eq s
  rw [e]
  rfl

theorem State.Holds.windowReset (holds : s.Holds p code) : s.windowReset.Holds p code := by
  obtain ⟨n, e⟩ := windowReset_eq s
  exact e ▸ holds.withRenewal _

theorem State.AtRest.windowReset (rest : s.AtRest) : s.windowReset.AtRest := by
  obtain ⟨n, e⟩ := windowReset_eq s
  exact e ▸ rest.withRenewal _

@[simp] theorem frameTaken_renewal (s : State) (p : Port) : (s.frameTaken p).renewal = s.renewal := s.setPort_renewal p _

theorem frameTaken_withRenewal (s : State) (p : Port) (r : Renewal) :
    ({ s.frameTaken p with renewal := r } : State) = ({ s with renewal := r } : State).frameTaken p := by cases p <;> rfl

/-- From the batch port in RUN the checks of R73 pass and reset the window count. -/
theorem batchChecked_frameTaken (port : s.BatchPort p) (k : State → State) :
    (s.frameTaken p).batchChecked p k = k (s.windowReset.frameTaken p) := by
  obtain ⟨life, run⟩ := port
  have operating : s.supply.lifeCycle ≠ .retired := fun retired => by simp [retired, LifeCycle.batchPort] at life
  by_cases staging : s.renewal.state = .staging
  · simp [State.batchChecked, State.frameTaken, life, run, operating, staging, windowReset_of_staging]
    cases p <;> rfl
  · simp [State.batchChecked, State.frameTaken, life, run, operating, staging, windowReset_of_ne_staging]

/-- A batch command whose frame passes R202 and R73 goes on with the fields of the frame. -/
theorem atStop_batch {α : Type} {is : Byte → Bool} (holds : s.Holds p code) (port : s.BatchPort p) (names : is code = true)
    {read : List Byte → Checked α} {x : α} (frame : read (s.payload p) = .ok x) (work : State → α → State) :
    s.atStop p is (fun t => t.checked p (read (t.payload p)) fun a => t.batchChecked p fun u => work u a) =
      (work (s.windowReset.frameTaken p) x).settle := by
  rw [atStop_of_holds _ holds names, frameTaken_payload, frame]
  exact congrArg State.settle (batchChecked_frameTaken port fun u => work u x)

/-- A frame answered at its take leaves a part at rest at rest. -/
theorem settle_complete_frameTaken (holds : s.Holds p code) (rest : s.AtRest) (st : Status) (b : List Byte) :
    ((s.frameTaken p).complete p st b).settle = s.answered p st b := by
  rw [complete_frameTaken holds]
  exact settle_of_atRest (rest.setPort holds.2.2 (.inl rfl))

theorem settle_refuse_frameTaken (holds : s.Holds p code) (rest : s.AtRest) (st : Status) :
    ((s.frameTaken p).refuse p st).settle = s.answered p st [] := settle_complete_frameTaken holds rest st []

/-- A command that changes the renewal engine and is answered at its take. -/
theorem settle_complete_withRenewal (holds : s.Holds p code) (rest : s.AtRest) (r : Renewal) (st : Status) (b : List Byte) :
    (State.complete { s.frameTaken p with renewal := r } p st b).settle =
      ({ s with renewal := r } : State).answered p st b := by
  rw [frameTaken_withRenewal]
  exact settle_complete_frameTaken (holds.withRenewal r) (rest.withRenewal r) st b

end

/-! ## Fields of a frame -/

theorem beNat_foldl_lt (bs : List Byte) (a : Nat) :
    bs.foldl (fun a b => a * 256 + b.toNat) a < (a + 1) * 256 ^ bs.length := by
  induction bs generalizing a with
  | nil => simp
  | cons b rest ih =>
    have byte : a * 256 + b.toNat + 1 ≤ (a + 1) * 256 := by have := b.isLt; omega
    calc (b :: rest).foldl (fun a b => a * 256 + b.toNat) a
        < (a * 256 + b.toNat + 1) * 256 ^ rest.length := ih _
      _ ≤ (a + 1) * 256 * 256 ^ rest.length := Nat.mul_le_mul_right _ byte
      _ = (a + 1) * 256 ^ (b :: rest).length := by
        rw [List.length_cons, Nat.pow_succ, Nat.mul_assoc, Nat.mul_comm 256]

/-- A field of `len` bytes spells a number below 256 to the power `len`. -/
theorem fieldAt_lt (off len : Nat) (bs : List Byte) : fieldAt off len bs < 256 ^ len := by
  have short : (bytesAt off len bs).length ≤ len := by
    rw [bytesAt, List.length_take]
    exact Nat.min_le_left ..
  calc fieldAt off len bs < (0 + 1) * 256 ^ (bytesAt off len bs).length := beNat_foldl_lt _ 0
    _ ≤ 256 ^ len := by rw [Nat.zero_add, Nat.one_mul]; exact Nat.pow_le_pow_right (by decide) short

/-- What a BATCH_OPEN frame that passes carries (R74). -/
theorem batchOpenFrame_ok {bs : List Byte} {h : Header} (frame : batchOpenFrame bs = .ok h) :
    h = ⟨fieldAt 0 4 bs, some (fieldAt 4 1 bs), some (fieldAt 5 2 bs), bs⟩ ∧
    fieldAt 0 4 bs ≠ 0 ∧ 1 ≤ fieldAt 4 1 bs ∧ fieldAt 4 1 bs ≤ 8 := by
  unfold batchOpenFrame need at frame
  split at frame
  · split at frame
    · split at frame
      · rename_i sequence count
        cases frame
        simp only [Bool.and_eq_true, decide_eq_true_eq] at sequence count
        exact ⟨rfl, sequence, count⟩
      · cases frame
    · cases frame
  · cases frame

/-! ## BATCH_OPEN (R74) -/

section
variable {s : State} {p : Port}

theorem openBatch_of_idle (idle : s.renewal.state = .idle) (h : Header) :
    s.openBatch p h = State.complete { s with renewal := { s.renewal with
      state := .staging, header := some h, buffer := [], windowCount := 0 } } p .ok [] := by
  rw [State.openBatch, if_neg (not_not_intro idle)]

theorem openBatch_of_ne_idle (busy : s.renewal.state ≠ .idle) (h : Header) : s.openBatch p h = s.refuse p .wrongState :=
  if_pos busy

end

/-- Settles O33: the header is that of `batchOpenFrame_ok`, and the two outcomes are the branches of `State.openBatch`. -/
theorem batchOpenStagesABatch : Obligations.BatchOpenStagesABatch := by
  intro p s h holds rest port frame
  obtain ⟨rfl, sequence, count⟩ := batchOpenFrame_ok frame
  have opened : exec (.batchOpen p) s = .next ((s.windowReset.frameTaken p).openBatch p _).settle :=
    congrArg Host.Outcome.next (atStop_batch holds port (by decide) frame fun u a => u.openBatch p a)
  refine ⟨rfl, rfl, rfl, rfl, ⟨Nat.pos_of_ne_zero sequence, ?_, fun n hn => ?_, fun d hd => ?_⟩, fun idle => ?_, fun busy => ?_⟩
  · have := fieldAt_lt 0 4 (s.payload p)
    simp only [LIMIT]
    omega
  · exact Option.some.inj hn ▸ count
  · have := fieldAt_lt 5 2 (s.payload p)
    cases hd
    omega
  · rw [opened, windowReset_of_ne_staging (by simp [idle]), openBatch_of_idle (by simpa using idle), frameTaken_renewal,
      settle_complete_withRenewal holds rest]
  · rw [opened, openBatch_of_ne_idle (by simpa using busy), settle_refuse_frameTaken holds.windowReset rest.windowReset]

/-! ## BATCH_STEP (R76) -/

/-- Two checks in a row with one refusal are one check of either. -/
theorem ite_either {α : Type} (a b : Prop) [Decidable a] [Decidable b] (x y : α) :
    (if a ∨ b then x else y) = if a then x else if b then x else y := by
  by_cases ha : a
  · rw [if_pos (.inl ha), if_pos ha]
  · by_cases hb : b
    · rw [if_pos (.inr hb), if_neg ha, if_pos hb]
    · rw [if_neg (fun h => h.elim ha hb), if_neg ha, if_neg hb]

section
variable {r : Renewal} {x : StepRecord}

theorem stepRefusal_of_ne_staging (other : r.state ≠ .staging) : r.stepRefusal x = some .wrongState := if_pos other

variable (staging : r.state = .staging)
include staging

theorem stepRefusal_stepOrder (order : x.index ≠ r.buffer.length ∨ r.count ≤ r.buffer.length) :
    r.stepRefusal x = some .stepOrder := by
  simp only [Renewal.stepRefusal, staging, if_pos order]
  rfl

/-- Past the check of the order, a record is refused where the buffer holds one of its slot, or one of its kind where that is
LIFECYCLE. -/
theorem stepRefusal_in_order (index : x.index = r.buffer.length) (room : r.buffer.length < r.count) :
    r.stepRefusal x = if (∃ i, x.part.slot = some i ∧ ∃ y ∈ r.buffer, y.part.slot = some i) ∨
      (x.part.isLifecycle = true ∧ ∃ y ∈ r.buffer, y.part.isLifecycle = true) then some .duplicateSlot else none := by
  have order : ¬ (x.index ≠ r.buffer.length ∨ r.count ≤ r.buffer.length) := by omega
  have slot : (x.part.slot.isSome = true ∧ r.buffer.any (fun y => decide (y.part.slot = x.part.slot)) = true) ↔
      ∃ i, x.part.slot = some i ∧ ∃ y ∈ r.buffer, y.part.slot = some i := by
    cases x.part.slot <;> simp
  rw [Renewal.stepRefusal, if_neg (not_not_intro staging), if_neg order]
  simp only [List.any_eq_true, decide_eq_true_eq] at slot ⊢
  simp only [slot, ite_either]

end

section
variable {s : State} {p : Port} {x : StepRecord}

theorem addStep_refused {e : Status} (refused : s.renewal.stepRefusal x = some e) : s.addStep p x = s.refuse p e := by
  rw [State.addStep, refused]

theorem addStep_taken (passes : s.renewal.stepRefusal x = none) :
    s.addStep p x = State.complete { s with renewal := { s.renewal with buffer := s.renewal.buffer ++ [x] } } p .ok [] := by
  rw [State.addStep, passes]

/-- The checks of a step record do not read the window count. -/
theorem stepRefusal_windowReset (s : State) (x : StepRecord) :
    s.windowReset.renewal.stepRefusal x = s.renewal.stepRefusal x := by
  obtain ⟨n, e⟩ := windowReset_eq s
  rw [e]
  rfl

end

/-- Settles O34: a refusal of `Renewal.stepRefusal` is answered, and a record that passes is stored. -/
theorem batchStepTable : Obligations.BatchStepTable := by
  intro p s x holds rest port frame buf count twice
  have taken : exec (.batchStep p) s = .next ((s.windowReset.frameTaken p).addStep p x).settle :=
    congrArg Host.Outcome.next (atStop_batch holds port (by decide) frame fun u a => u.addStep p a)
  have refused {e : Status} (h : s.renewal.stepRefusal x = some e) :
      exec (.batchStep p) s = .next (s.windowReset.answered p e []) := by
    rw [taken, addStep_refused (by rw [frameTaken_renewal, stepRefusal_windowReset, h]),
      settle_refuse_frameTaken holds.windowReset rest.windowReset]
  refine ⟨fun other => ?_, fun staging order => refused (stepRefusal_stepOrder staging order),
    fun staging index room dup => refused ((stepRefusal_in_order staging index room).trans (if_pos dup)),
    fun staging index room single => ?_⟩
  · rw [refused (stepRefusal_of_ne_staging other), windowReset_of_ne_staging other]
  · have passes := (stepRefusal_in_order staging index room).trans (if_neg single)
    rw [taken, addStep_taken (by rw [frameTaken_renewal, stepRefusal_windowReset, passes]), frameTaken_renewal,
      settle_complete_withRenewal holds.windowReset rest.windowReset, windowReset_of_staging staging]

/-! ## BATCH_RESULT (R93) -/

/-- Settles O37: no check after R73 looks at the state, and the window count is no part of the result. -/
theorem batchResultReportsTheResult : Obligations.BatchResultReportsTheResult := by
  intro p s holds rest port payload r reasons
  have frame : emptyFrame (s.payload p) = .ok () := by rw [payload]; rfl
  have told : exec (.batchResult p) s =
      .next ((s.windowReset.frameTaken p).complete p .ok (s.windowReset.frameTaken p).renewal.result.bytes).settle :=
    congrArg Host.Outcome.next (atStop_batch holds port (by decide) frame fun u _ => u.complete p .ok u.renewal.result.bytes)
  have result : (s.windowReset.frameTaken p).renewal.result = r := by simp [r]
  have fields : r.outcome.reasonBytes = reasons := by
    simp only [reasons]
    cases r.outcome with
    | refused y => cases y <;> rfl
    | _ => rfl
  rw [told, settle_complete_frameTaken holds.windowReset rest.windowReset, result, BatchResult.bytes, fields]

end Sys2Proof.Machine
end

section
/-! PROOFS. The early end of a batch (R91, R95, R145), and the commands that can bring it: BATCH_CLOSE with an old sequence, and CANCEL. -/

namespace Sys2Proof.Machine

/-! ## Every slot changed (R10) -/

theorem foldl_setSlot_slot (f : Fin 24 → Slot → Slot) (k : Fin 24) (l : List (Fin 24)) (nodup : l.Nodup) (s : State) :
    (l.foldl (fun s i => s.setSlot i (f i (s.slot i))) s).slot k = if k ∈ l then f k (s.slot k) else s.slot k := by
  induction l generalizing s with
  | nil => rfl
  | cons i rest ih =>
    obtain ⟨fresh, nodup⟩ := List.nodup_cons.mp nodup
    rw [List.foldl_cons, ih nodup]
    by_cases same : k = i
    · subst same
      simp [fresh]
    · simp [same, s.slot_setSlot_ne (Ne.symm same)]

theorem foldl_setSlot_eq (f : Fin 24 → Slot → Slot) (l : List (Fin 24)) (s : State) :
    ∃ v, l.foldl (fun s i => s.setSlot i (f i (s.slot i))) s = { s with slots := v } := by
  induction l generalizing s with
  | nil => exact ⟨s.slots, rfl⟩
  | cons i rest ih => exact ih (s.setSlot i _)

/-- Each slot record is changed, and nothing but the slots. -/
theorem mapSlots_eq (s : State) (f : Fin 24 → Slot → Slot) :
    ∃ v, (∀ i : Fin 24, v[i.val] = f i (s.slot i)) ∧ s.mapSlots f = { s with slots := v } := by
  obtain ⟨v, e⟩ := foldl_setSlot_eq f (List.finRange 24) s
  refine ⟨v, fun i => ?_, e⟩
  have slot := foldl_setSlot_slot f i (List.finRange 24) (List.nodup_finRange 24) s
  rw [e, if_pos (List.mem_finRange i)] at slot
  exact slot

/-! ## The writes of a batch that ends (R91, R145) -/

theorem detached_reports (r : Requester) :
    r.detached ≠ .checkFloor true ∧ (∀ i, r.detached ≠ .checkBank true i) ∧ ∀ last, r.detached ≠ .checkStep true last := by
  cases r <;> simp [Requester.detached]

theorem ofBatch_reports {r : Requester} (h : r.ofBatch = false) :
    r ≠ .checkFloor true ∧ (∀ i, r ≠ .checkBank true i) ∧ ∀ last, r ≠ .checkStep true last := by
  cases r <;> simp_all [Requester.ofBatch]

theorem not_batchBank_eq (e : Entry) : (!e.batchBank) = decide (∀ i, e.requester ≠ .checkBank true i) := by
  obtain ⟨w, r⟩ := e
  cases r with
  | checkBank attached i => cases attached <;> simp [Entry.batchBank]
  | _ => simp [Entry.batchBank]

/-- Freed places go to the oldest writes of the place list, up to 8 in the queue (R142, R144). -/
theorem refill_eq_take_drop {queue place : List Entry} (h : queue.length ≤ 8) :
    refill queue place = ((queue ++ place).take 8, (queue ++ place).drop 8) := by
  obtain ⟨le, full⟩ := refill_bounds queue place h
  rw [← refill_append queue place]
  rcases full with empty | eight
  · rw [empty, List.append_nil, List.take_of_length_le le, List.drop_eq_nil_of_le le]
    exact Prod.ext rfl empty
  · rw [List.take_left' eight, List.drop_left' eight]

/-- The entries that stand in the queue, before freed places are taken, once their batch has ended: the one in service and those behind
it that are no bank write of the batch, with none reporting to it. -/
def Journal.keptQueue (j : Journal) : List Entry :=
  (j.queue.take 1 ++ (j.queue.drop 1).filter fun e => !e.batchBank).map Entry.detached

/-- The writes of the place list that are not of the batch. -/
def Journal.keptPlace (j : Journal) : List Entry := j.place.filter fun e => !e.requester.ofBatch

section
variable (j : Journal) (q : Nat)

theorem batchEnded_refill :
    ((j.batchEnded q).queue, (j.batchEnded q).place) = refill j.keptQueue j.keptPlace := by
  cases e : j.queue <;> simp [Journal.batchEnded, Journal.refilled, Journal.keptQueue, Journal.keptPlace, e]

theorem batchEnded_append : (j.batchEnded q).queue ++ (j.batchEnded q).place = j.keptQueue ++ j.keptPlace := by
  rw [← refill_append j.keptQueue, ← batchEnded_refill j q]

theorem mem_keptQueue {e : Entry} (h : e ∈ j.keptQueue) : ∃ o ∈ j.queue, o.detached = e := by
  obtain ⟨o, kept, rfl⟩ := List.mem_map.mp h
  refine ⟨o, ?_, rfl⟩
  rcases List.mem_append.mp kept with first | rest
  · exact List.mem_of_mem_take first
  · exact List.mem_of_mem_drop (List.mem_filter.mp rest).1

/-- No write is added (R91). -/
theorem batchEnded_writes {e : Entry} (h : e ∈ (j.batchEnded q).queue ++ (j.batchEnded q).place) :
    ∃ o ∈ j.queue ++ j.place, o.write = e.write := by
  rw [batchEnded_append] at h
  rcases List.mem_append.mp h with queued | placed
  · obtain ⟨o, old, rfl⟩ := mem_keptQueue j queued
    exact ⟨o, List.mem_append_left _ old, rfl⟩
  · exact ⟨e, List.mem_append_right _ (List.mem_filter.mp placed).1, rfl⟩

/-- No write reports to a batch that has ended (R145). -/
theorem batchEnded_reports {e : Entry} (h : e ∈ (j.batchEnded q).queue ++ (j.batchEnded q).place) :
    e.requester ≠ .checkFloor true ∧ (∀ i, e.requester ≠ .checkBank true i) ∧ ∀ last, e.requester ≠ .checkStep true last := by
  rw [batchEnded_append] at h
  rcases List.mem_append.mp h with queued | placed
  · obtain ⟨o, -, rfl⟩ := mem_keptQueue j queued
    exact detached_reports o.requester
  · exact ofBatch_reports (by simpa using (List.mem_filter.mp placed).2)

theorem keptQueue_writes :
    j.keptQueue.map (fun e => e.write) = (j.queue.take 1 ++
      (j.queue.drop 1).filter fun e => decide (∀ i, e.requester ≠ .checkBank true i)).map fun e => e.write := by
  rw [Journal.keptQueue, List.map_map, funext not_batchBank_eq]
  rfl

/-- The writes that remain fill the queue in their order, and the others wait for a place (R91, R142, R145). -/
theorem batchEnded_split (bound : j.queue.length ≤ 8) :
    let queue := j.queue.take 1 ++ (j.queue.drop 1).filter fun e => decide (∀ i, e.requester ≠ .checkBank true i)
    let place := j.place.filter fun e => !e.requester.ofBatch
    let writes := (queue ++ place).map fun e => e.write
    (j.batchEnded q).queue.map (fun e => e.write) = writes.take 8 ∧
    (j.batchEnded q).place.map (fun e => e.write) = writes.drop 8 := by
  have kept : j.keptQueue.length ≤ 8 := by
    have := List.length_filter_le (fun e : Entry => !e.batchBank) (j.queue.drop 1)
    simp only [Journal.keptQueue, List.length_map, List.length_append, List.length_take, List.length_drop] at this ⊢
    omega
  have split := batchEnded_refill j q
  rw [refill_eq_take_drop kept, Prod.ext_iff] at split
  obtain ⟨queue, place⟩ := split
  dsimp only at queue place ⊢
  rw [queue, place, List.map_take, List.map_drop, List.map_append, List.map_append, keptQueue_writes]
  exact ⟨rfl, rfl⟩

/-- STEP records of the batch are stale, and every other live record stays live (R90, R147). -/
theorem batchEnded_isLive (n : Nat) :
    (j.batchEnded q).isLive n = true ↔
      j.isLive n = true ∧ ∀ r, j.recordAt n = some r → ∀ x a, r.body = .step x a → x ≠ q := by
  simp only [Journal.isLive, Journal.batchEnded, Journal.refilled, List.contains_eq_mem, decide_eq_true_eq, Journal.mem_without]
  refine and_congr_right fun _ => forall_congr' fun r => imp_congr_right fun _ => ?_
  cases r.body <;> simp

end

/-! ## The batch gone (R91, R95) -/

section
variable {s : State} {p : Port} {code : Byte}

/-- All that the early end of a batch changes (R91, R95): the NEXT cells, the writes of the batch, its checking request, its operation in
the engine, and the renewal engine. -/
theorem endBatch_eq (s : State) (result : BatchResult) :
    ∃ v, (∀ i : Fin 24, v[i.val] = { s.slot i with next := none }) ∧ s.endBatch result = { s with
      slots := v
      journal := s.journal.batchEnded s.renewal.sequence
      arbiter := { s.arbiter with checking := none, passed := 0 }
      engine := s.engine.map EngineOp.detached
      renewal := { Renewal.idle with result := result, lastCommitted := s.renewal.lastCommitted } } := by
  obtain ⟨v, slots, e⟩ := mapSlots_eq s fun _ c => { c with next := none }
  exact ⟨v, slots, by rw [State.endBatch, State.dropNexts, e]⟩

/-- A refused batch ends, and BATCH_REFUSED goes to both queues (R91). -/
theorem refuseBatch_eq (s : State) (reason : BatchReason) :
    ∃ v, (∀ i : Fin 24, v[i.val] = { s.slot i with next := none }) ∧ s.refuseBatch reason = { s with
      slots := v
      journal := s.journal.batchEnded s.renewal.sequence
      arbiter := { s.arbiter with checking := none, passed := 0 }
      engine := s.engine.map EngineOp.detached
      renewal := { Renewal.idle with
        result := ⟨s.renewal.sequence, .refused reason, s.renewal.outcomes⟩, lastCommitted := s.renewal.lastCommitted }
      queueM := arrive s.queueM ⟨.batchRefused, none, none, some s.renewal.sequence, s.time.t⟩
      queueL := arrive s.queueL ⟨.batchRefused, none, none, some s.renewal.sequence, s.time.t⟩ } := by
  obtain ⟨v, slots, e⟩ := endBatch_eq s ⟨s.renewal.sequence, .refused reason, s.renewal.outcomes⟩
  refine ⟨v, slots, ?_⟩
  rw [State.refuseBatch, e]
  rfl

theorem endBatch_port (s : State) (result : BatchResult) (x : Port) : (s.endBatch result).port x = s.port x := by
  obtain ⟨v, -, e⟩ := endBatch_eq s result
  rw [e]
  cases x <;> rfl

/-- The end of a batch looks at no port, so it may be taken before the frame that brings it. -/
theorem endBatch_frameTaken (s : State) (p : Port) (result : BatchResult) :
    (s.frameTaken p).endBatch result = (s.endBatch result).frameTaken p := by
  obtain ⟨v, slots, e⟩ := endBatch_eq (s.frameTaken p) result
  obtain ⟨w, slots', e'⟩ := endBatch_eq s result
  have same : v = w := Vector.ext fun i hi => by
    rw [slots ⟨i, hi⟩, slots' ⟨i, hi⟩, State.frameTaken, State.setPort_slot]
  rw [e, e', same]
  cases p <;> rfl

theorem State.Holds.endBatch (holds : s.Holds p code) (result : BatchResult) : (s.endBatch result).Holds p code := by
  rw [State.Holds, endBatch_port]
  exact holds

/-- F0 is read from slot 0's CURRENT cell alone (R43). -/
theorem f0_congr {t : State} (h : (t.slot 0).current = (s.slot 0).current) : t.f0 = s.f0 := by rw [State.f0, State.f0, h]

/-- Taking the checking request away leaves a part at rest at rest. -/
theorem State.AtRest.withdrawChecking (rest : s.AtRest) :
    ({ s with arbiter := { s.arbiter with checking := none, passed := 0 } } : State).AtRest := by
  obtain ⟨grant, run⟩ := rest
  refine ⟨(grant_eq_none_iff _).mpr (((grant_eq_none_iff s).mp grant).imp_right (Or.imp_right ?_)), run⟩
  rintro ⟨resumed, hold, -, next⟩
  exact ⟨resumed, hold, rfl, next⟩

theorem State.AtRest.endBatch (rest : s.AtRest) (result : BatchResult) : (s.endBatch result).AtRest := by
  obtain ⟨v, -, e⟩ := endBatch_eq s result
  rw [e]
  exact rest.withdrawChecking.of_same (Option.isSome_map ..) rfl (fun x => by cases x <;> rfl) rfl

theorem State.AtRest.refuseBatch (rest : s.AtRest) (reason : BatchReason) : (s.refuseBatch reason).AtRest :=
  (rest.endBatch ⟨s.renewal.sequence, .refused reason, s.renewal.outcomes⟩).of_same (by simp [State.refuseBatch])
    (by simp [State.refuseBatch]) (fun x => by cases x <;> simp [State.refuseBatch, State.inCharge, State.port])
    (by simp [State.refuseBatch])

/-! ## BATCH_CLOSE (R77, R80, R81) -/

/-- The renewal engine as BATCH_CLOSE leaves it for checking to begin (R77). -/
def Renewal.closed (r : Renewal) (tag : Tag) : Renewal :=
  { r with state := .checking, authenticator := some tag, windowCount := 0, result := ⟨r.sequence, .checking, []⟩ }

theorem closeBatch_of_ne_staging (other : s.renewal.state ≠ .staging) (tag : Tag) :
    s.closeBatch p tag = s.refuse p .wrongState := if_pos other

section
variable (staging : s.renewal.state = .staging)
include staging

theorem closeBatch_of_count_ne (count : s.renewal.buffer.length ≠ s.renewal.count) (tag : Tag) :
    s.closeBatch p tag = s.refuse p .stepCount := by
  rw [State.closeBatch, if_neg (not_not_intro staging), if_pos count]

theorem closeBatch_of_count (count : s.renewal.buffer.length = s.renewal.count) (tag : Tag) :
    s.closeBatch p tag =
      (State.complete { s with renewal := s.renewal.closed tag } p .ok []).beginChecking tag := by
  rw [State.closeBatch, if_neg (not_not_intro staging), if_neg (not_not_intro count)]
  rfl

end

/-- The sequence stage passes where there is no F0 or the sequence is above it (R80). -/
theorem beginChecking_above (above : ∀ f ∈ s.f0, f < s.renewal.sequence) (tag : Tag) :
    s.beginChecking tag =
      (s.setStage .authenticator).present (.authenticator s.renewal.sequence s.renewal.message tag) := by
  rw [State.beginChecking, if_neg]
  cases f0 : s.f0 with
  | none => simp
  | some f => simpa using above f f0

theorem beginChecking_old {f : Nat} (f0 : s.f0 = some f) (old : s.renewal.sequence ≤ f) (tag : Tag) :
    s.beginChecking tag = s.refuseBatch .oldSequence := by
  rw [State.beginChecking, if_pos (by simpa [f0] using old)]

/-- A checking request presented to an idle engine is granted at once (R64, R66). -/
theorem settle_present (idle : s.EngineIdle) (run : s.supply.run ≠ .flush) (c : CheckInput) :
    (s.present c).settle = { s with
      arbiter := { s.arbiter with passed := 0 }, engine := some (.check true c s.renewalKey) } := by
  obtain ⟨engine, resumed, hold, waitM, waitL, checking⟩ := idle
  have granted : (s.present c).grant = some ((s.present c).grantChecking c) := by
    cases twice : decide (s.arbiter.passed = 2) <;>
      simp [State.grant, State.present, engine, resumed, hold, waitM, waitL, twice, Arbiter.nextPort]
  have busy : ((s.present c).grantChecking c).grant = none := grant_none_of_engine rfl
  have none_waiting : (s.present c).arbiter.resumed.length + 6 = 5 + 1 := by simp [State.present, resumed]
  rw [State.settle, none_waiting, State.grants, granted]
  dsimp only
  rw [grants_of_grant_none _ busy, drain_of_not_flush (s := (s.present c).grantChecking c) run]
  simp only [State.grantChecking, State.present, ← checking]
  rfl

theorem execBatchClose_of_holds {tag : Tag} (holds : s.Holds p 0x32) (port : s.BatchPort p)
    (frame : batchCloseFrame (s.payload p) = .ok tag) :
    exec (.batchClose p) s = .next ((s.windowReset.frameTaken p).closeBatch p tag).settle :=
  congrArg Host.Outcome.next (atStop_batch holds port (by decide) frame fun u a => u.closeBatch p a)

/-- A BATCH_CLOSE that is taken is answered OK, and checking begins (R77). -/
theorem execBatchClose_begins {tag : Tag} (holds : s.Holds p 0x32) (port : s.BatchPort p)
    (frame : batchCloseFrame (s.payload p) = .ok tag) (staging : s.renewal.state = .staging)
    (count : s.renewal.buffer.length = s.renewal.count) :
    exec (.batchClose p) s =
      .next ((({ s with renewal := s.renewal.closed tag } : State).answered p .ok []).beginChecking tag).settle := by
  have renewal := frameTaken_renewal s.windowReset p
  rw [windowReset_of_staging staging] at renewal
  rw [execBatchClose_of_holds holds port frame, windowReset_of_staging staging,
    closeBatch_of_count (by rw [renewal]; exact staging) (by rw [renewal]; exact count), frameTaken_withRenewal,
    complete_frameTaken (State.Holds.withRenewal (holds.withRenewal _) _), renewal]
  rfl

end

/-- Settles O35: past the refusals of `State.closeBatch`, checking begins by `beginChecking_above`, and the request it presents is granted
to an idle engine by `settle_present`, or waits for a busy one. -/
theorem batchCloseBeginsChecking : Obligations.BatchCloseBeginsChecking := by
  intro p s tag holds rest port frame
  have closed := execBatchClose_of_holds holds port frame
  refine ⟨fun other => ?_, fun staging count => ?_, fun staging count above => ?_⟩
  · rw [closed, windowReset_of_ne_staging other, closeBatch_of_ne_staging (by simpa using other),
      settle_refuse_frameTaken holds rest]
  · have renewal := frameTaken_renewal s.windowReset p
    rw [windowReset_of_staging staging] at renewal
    rw [closed, windowReset_of_staging staging,
      closeBatch_of_count_ne (by rw [renewal]; exact staging) (by rw [renewal]; exact count),
      settle_refuse_frameTaken (holds.withRenewal _) (rest.withRenewal _)]
  · have begun := execBatchClose_begins holds port frame staging count
    rw [beginChecking_above (by cases p <;> exact above)] at begun
    refine ⟨fun idle => ?_, fun busy => ?_⟩
    · rw [begun, settle_present]
      · cases p <;> rfl
      · cases p <;> exact idle
      · cases p <;> exact rest.2
    · rw [begun, settle_of_atRest ⟨grant_none_of_engine (by cases p <;> exact busy), by cases p <;> exact rest.2⟩]
      cases p <;> rfl

/-- Settles O36: checking ends at its sequence stage by `beginChecking_old`, and leaves the part at rest. -/
theorem oldSequenceIsRefused : Obligations.OldSequenceIsRefused := by
  intro p s tag f holds rest port frame staging count f0 old
  let t : State := { s with renewal := s.renewal.closed tag }
  have atRest : (t.answered p .ok []).AtRest := (rest.withRenewal _).setPort (holds.withRenewal _).2.2 (.inl rfl)
  have ended : exec (.batchClose p) s = .next ((t.answered p .ok []).refuseBatch .oldSequence) := by
    rw [execBatchClose_begins holds port frame staging count,
      beginChecking_old (f := f) (by cases p <;> exact f0) (by cases p <;> exact old), settle_of_atRest (atRest.refuseBatch _)]
  obtain ⟨v, slots, e⟩ := refuseBatch_eq (t.answered p .ok []) .oldSequence
  rw [e] at ended
  have f0_stays : ({ t.answered p .ok [] with slots := v } : State).f0 = some f := by
    have cell : ((t.answered p .ok []).slot 0).current = (s.slot 0).current := congrArg Slot.current (t.setPort_slot p _ 0)
    refine (f0_congr (s := s) ?_).trans f0
    exact (congrArg Slot.current (slots 0)).trans cell
  have writes (e) := batchEnded_writes s.journal s.renewal.sequence (e := e)
  refine ⟨_, ended, ?_⟩
  cases p <;> exact ⟨rfl, rfl, rfl, rfl, rfl, rfl, rfl, writes, f0_stays, rfl, rfl⟩

/-! ## CANCEL (R94, R95, R96) -/

section
variable {s : State} {p : Port} {q : Nat}

theorem cancelCommand_of_idle (idle : s.renewal.state = .idle) : s.cancelCommand p q = s.refuse p .wrongState := if_pos idle

theorem cancelCommand_of_other (busy : s.renewal.state ≠ .idle) (other : q ≠ s.renewal.sequence) :
    s.cancelCommand p q = s.refuse p .wrongBatch := by
  rw [State.cancelCommand, if_neg busy, if_pos other]

section
variable (own : q = s.renewal.sequence)
include own

theorem cancelCommand_of_committing (committing : s.renewal.state = .committing) :
    s.cancelCommand p q = s.refuse p .tooLate := by
  rw [State.cancelCommand, if_neg (by simp [committing]), if_neg (not_not_intro own), if_pos committing]

/-- A batch in STAGING, or in CHECKING before its ARM record, is cancelled at once (R95). -/
theorem cancelCommand_of_beforeArm
    (before : s.renewal.state = .staging ∨ (s.renewal.state = .checking ∧ s.renewal.checking ≠ some .arm)) :
    s.cancelCommand p q = s.cancelBatch.complete p .ok [] := by
  have abandons : s.renewal.beforeArm = true := by simpa [Renewal.beforeArm] using before
  have other (x : RenewalState) (h : x ≠ .staging ∧ x ≠ .checking) : s.renewal.state ≠ x := by
    rintro rfl
    rcases before with staging | ⟨checking, -⟩
    · exact h.1 staging
    · exact h.2 checking
  rw [State.cancelCommand, if_neg (other .idle (by decide)), if_neg (not_not_intro own),
    if_neg (other .committing (by decide)), if_pos abandons]

theorem cancelCommand_of_armed (armed : s.renewal.state = .armed) :
    s.cancelCommand p q = (s.awaitCancel p q).beginDisarm := by
  simp [State.cancelCommand, armed, own, Renewal.beforeArm]

theorem cancelCommand_of_arm (checking : s.renewal.state = .checking) (arm : s.renewal.checking = some .arm) :
    s.cancelCommand p q = s.awaitCancel p q := by
  simp [State.cancelCommand, checking, arm, own, Renewal.beforeArm]

end

/-- A CANCEL that waits for a record is the request in flight of the port whose frame was taken (R96). -/
theorem awaitCancel_frameTaken (s : State) (p : Port) (q : Nat) :
    (s.frameTaken p).awaitCancel p q = s.setPort p ((s.port p).inFlight (.cancel q)) := by cases p <;> rfl

@[simp] theorem State.handed_engine (s : State) (w : Write) (r : Requester) : (s.handed w r).engine = s.engine := by
  unfold State.handed; split <;> rfl
@[simp] theorem State.handed_arbiter (s : State) (w : Write) (r : Requester) : (s.handed w r).arbiter = s.arbiter := by
  unfold State.handed; split <;> rfl
@[simp] theorem State.handed_supply (s : State) (w : Write) (r : Requester) : (s.handed w r).supply = s.supply := by
  unfold State.handed; split <;> rfl

/-- In RUN, CANCEL of an armed batch hands its DISARM record over (R96). -/
theorem beginDisarm_of_run (run : s.supply.run = .run) :
    s.beginDisarm = ({ s with
      renewal := { s.renewal with disarm := true, activation := false }
      arbiter := { s.arbiter with hold := if s.arbiter.hold = .requested then .none else s.arbiter.hold } } : State).handed
        (.append (.disarm s.renewal.sequence)) .disarm :=
  handOver_eq_handed (by simp [run]) (by simp [run]) _ _

section
variable (holds : s.Holds p 0x35) (port : s.BatchPort p) (frame : sequenceFrame (s.payload p) = .ok q)
include holds port frame

theorem execCancel_of_holds : exec (.cancel p) s = .next ((s.windowReset.frameTaken p).cancelCommand p q).settle :=
  congrArg Host.Outcome.next (atStop_batch holds port (by decide) frame fun u a => u.cancelCommand p a)

theorem execCancel_refused (rest : s.AtRest) {e : Status}
    (refused : (s.windowReset.frameTaken p).cancelCommand p q = (s.windowReset.frameTaken p).refuse p e) :
    exec (.cancel p) s = .next (s.windowReset.answered p e []) := by
  rw [execCancel_of_holds holds port frame, refused, settle_refuse_frameTaken holds.windowReset rest.windowReset]

variable (own : q = s.renewal.sequence)
include own

theorem execCancel_of_beforeArm (rest : s.AtRest)
    (before : s.renewal.state = .staging ∨ (s.renewal.state = .checking ∧ s.renewal.checking ≠ some .arm)) :
    exec (.cancel p) s = .next (s.windowReset.cancelBatch.answered p .ok []) := by
  rw [execCancel_of_holds holds port frame, cancelCommand_of_beforeArm (by simpa using own) (by simpa using before),
    State.cancelBatch, endBatch_frameTaken, frameTaken_renewal,
    settle_complete_frameTaken (holds.windowReset.endBatch _) (rest.windowReset.endBatch _)]
  rfl

theorem execCancel_of_armed (armed : s.renewal.state = .armed) :
    exec (.cancel p) s = .next (State.settle (({ s.setPort p ((s.port p).inFlight (.cancel q)) with
      renewal := { s.renewal with disarm := true, activation := false }
      arbiter := { s.arbiter with hold := if s.arbiter.hold = .requested then .none else s.arbiter.hold } } : State).handed
        (.append (.disarm s.renewal.sequence)) .disarm)) := by
  rw [execCancel_of_holds holds port frame, cancelCommand_of_armed (by simpa using own) (by simpa using armed),
    windowReset_of_ne_staging (by simp [armed]), awaitCancel_frameTaken,
    beginDisarm_of_run (by rw [State.setPort_supply]; exact port.2)]
  cases p <;> rfl

theorem execCancel_of_arm (rest : s.AtRest) (checking : s.renewal.state = .checking) (arm : s.renewal.checking = some .arm) :
    exec (.cancel p) s = .next (s.setPort p ((s.port p).inFlight (.cancel q))) := by
  rw [execCancel_of_holds holds port frame,
    cancelCommand_of_arm (by simpa using own) (by simpa using checking) (by simpa using arm),
    windowReset_of_ne_staging (by simp [checking]), awaitCancel_frameTaken,
    settle_of_atRest (rest.setPort holds.2.2 (.inr ⟨q, rfl⟩))]

end

end

/-- Settles O39: each clause is the branch of `State.cancelCommand` that its hypotheses pick; what a batch cancelled at once leaves is
`endBatch_eq` with the lemmas of `Journal.batchEnded`. -/
theorem cancelTable : Obligations.CancelTable := by
  intro p s q holds rest port frame r waiting
  have refused {e : Status} := execCancel_refused holds port frame rest (e := e)
  refine ⟨fun idle => ?_, fun busy other => ?_, fun committing own => ?_, fun before own => ?_, fun armed own => ?_,
    fun checking arm own => execCancel_of_arm holds port frame own rest checking arm⟩
  · rw [refused (cancelCommand_of_idle (by simpa using idle)), windowReset_of_ne_staging (idle ▸ by decide)]
  · exact refused (cancelCommand_of_other (by simpa using busy) (by simpa using other))
  · rw [refused (cancelCommand_of_committing (by simpa using own) (by simpa using committing)),
      windowReset_of_ne_staging (committing ▸ by decide)]
  · have ended := execCancel_of_beforeArm holds port frame own rest before
    obtain ⟨n, reset⟩ := windowReset_eq s
    obtain ⟨v, slots, e⟩ := endBatch_eq s.windowReset
      ⟨s.windowReset.renewal.sequence, .cancelled, s.windowReset.renewal.outcomes⟩
    rw [State.cancelBatch, e, reset] at ended
    rw [reset] at slots
    have reports (e) := batchEnded_reports s.journal r.sequence (e := e)
    have split := batchEnded_split s.journal r.sequence
    have live (n) : (s.journal.batchEnded r.sequence).isLive n = (s.journal.isLive n &&
        match s.journal.recordAt n with | some ⟨_, .step x _, _⟩ => decide (x ≠ r.sequence) | _ => true) := by
      rw [Bool.eq_iff_iff, batchEnded_isLive, Bool.and_eq_true]
      refine and_congr_right fun _ => ?_
      cases s.journal.recordAt n with
      | none => simp
      | some x =>
        obtain ⟨lap, body, check⟩ := x
        cases body <;> simp
    refine ⟨_, ended, ?_⟩
    cases p <;>
      exact ⟨rfl, rfl, rfl, rfl, rfl, rfl, rfl, slots, rfl, rfl, rfl, rfl, rfl, rfl, reports, split, live⟩
  · intro u t
    have disarms : exec (.cancel p) s = .next t.settle := execCancel_of_armed holds port frame own armed
    refine ⟨disarms, fun free => ?_⟩
    rw [disarms, settle_of_atRest ⟨?_, by simpa [t, u, waiting] using rest.2⟩]
    rcases free with busy | ⟨hold, resumed, checking, waitM, waitL⟩
    · exact grant_none_of_engine (by simpa [t, u, waiting] using busy)
    · have arbiter : t.arbiter = u.arbiter := u.handed_arbiter _ _
      have withdrawn : u.arbiter.hold = .none := by cases h : s.arbiter.hold <;> simp_all [u]
      exact grant_none_of_no_requester (arbiter ▸ resumed) (arbiter ▸ withdrawn) (arbiter ▸ waitM) (arbiter ▸ waitL)
        (arbiter ▸ checking)

end Sys2Proof.Machine
end

section
/-! PROOFS. The authenticator stage (R60, R81, R43): AUTHENTICATOR_CHECK, and the FLOOR record that consumes the sequence. -/

namespace Sys2Proof.Machine

/-! ## AUTHENTICATOR_CHECK (R60, R81) -/

section
variable {s : State} {q : Nat} {msg : List Byte} {tag : Tag} {key : Option (Nat × Fin 3)}

/-- A tag agrees where slot 0's CURRENT was LIVE at the grant and the tag under its key is the one given (R60). -/
theorem authVerdict_eq_true :
    s.authVerdict q msg tag key = true ↔ ∃ g bank, key = some (g, bank) ∧ tagOver (s.journal.keyAt 0 bank) 0 g q msg = tag := by
  cases key with
  | none => simp [State.authVerdict]
  | some k =>
    obtain ⟨g, bank⟩ := k
    refine ⟨fun h => ⟨g, bank, rfl, of_decide_eq_true h⟩, ?_⟩
    rintro ⟨_, _, same, agrees⟩
    cases same
    exact decide_eq_true agrees

theorem execAuthenticatorCheck_detached (engine : s.engine = some (.check false (.authenticator q msg tag) key)) :
    exec .authenticatorCheck s = .next (State.settle { s with engine := none }) := by
  change execAuthenticatorCheck s = _
  simp [execAuthenticatorCheck, engine]

theorem execAuthenticatorCheck_agrees {g : Nat} {bank : Fin 3}
    (engine : s.engine = some (.check true (.authenticator q msg tag) (some (g, bank))))
    (agrees : s.authVerdict q msg tag (some (g, bank)) = true) :
    exec .authenticatorCheck s = .next (({ s with engine := none } : State).authenticated true g).settle := by
  change execAuthenticatorCheck s = _
  simp [execAuthenticatorCheck, engine, agrees]

theorem execAuthenticatorCheck_differs (engine : s.engine = some (.check true (.authenticator q msg tag) key))
    (differs : s.authVerdict q msg tag key = false) :
    exec .authenticatorCheck s = .next (({ s with engine := none } : State).refuseBatch .badAuth).settle := by
  change execAuthenticatorCheck s = _
  simp [execAuthenticatorCheck, engine, differs, State.authenticated]

/-- In RUN a match hands over the FLOOR record that consumes the sequence (R81). -/
theorem authenticated_of_run (run : s.supply.run = .run) (g : Nat) :
    s.authenticated true g = ({ s with renewal := { s.renewal with checking := some .floorWrite } } : State).handed
      (.append (.floor 0 g s.renewal.sequence none)) (.checkFloor true) :=
  handOver_eq_handed (s := s.setStage .floorWrite) (by simp [run]) (by simp [run]) _ _

end

/-! ## The completion of a write with no other waiting for its place (R144) -/

section
variable {s : State}

theorem refilled_of_place_nil {j : Journal} (place : j.place = []) : j.refilled = j := by
  obtain ⟨ring, banks, queue, _, position, lap, live, failures⟩ := j
  cases place
  rfl

/-- The store of a write leaves the place list as it was. -/
theorem storeEffect_place (s : State) (e : Entry) : (s.storeEffect e).place = s.journal.place := by
  unfold State.storeEffect
  split <;> rfl

theorem execWriteComplete_of_place_nil {e : Entry} {rest : List Entry} (queue : s.journal.queue = e :: rest)
    (copy : s.copyDue e = false) (place : s.journal.place = []) :
    exec .writeComplete s =
      .next (State.requesterActs { s with journal := { s.storeEffect e with queue := rest, failures := 0 } } e).settle := by
  change execWriteComplete s = _
  rw [execWriteComplete, queue]
  dsimp only
  rw [if_neg (by simp [copy]), State.completeEntry, place, List.head?_nil,
    refilled_of_place_nil (j := { s.storeEffect e with queue := rest, failures := 0 }) ((storeEffect_place s e).trans place)]

/-! ## The sequence taken (R40, R43) -/

/-- A slot's contents and its demand at one event are `State.slotDemand`, where the notify map stays. -/
theorem raiseSlot_setSlot {i : Fin 24} {c : Slot} (notify : c.notifyMap = (s.slot i).notifyMap) (kind : DemandKind) (g : Nat) :
    (s.setSlot i c).raiseSlot kind i g = s.slotDemand i c ⟨kind, some i, some g, none, s.time.t⟩ := by
  rw [State.raiseSlot, State.slot_setSlot, notify]
  cases m : (s.slot i).notifyMap.m <;> cases l : (s.slot i).notifyMap.l <;>
    simp [State.raise, State.slotDemand, State.setSlot, State.now, m, l]

/-- F0 and P take the sequence, and a LIVE cell that it brings to LIMIT becomes SPENT with its demand (R40, R43). -/
theorem takeSequence_eq {k : Current} (current : (s.slot 0).current = some k) (v : Nat) :
    let full := k.state = .live ∧ v = LIMIT
    let c := { s.slot 0 with
      current := some { k with counters := .floor v v, state := if full then .spent else k.state } }
    s.takeSequence k.generation v =
      if full then s.slotDemand 0 c ⟨.spent, some 0, some k.generation, none, s.time.t⟩ else s.setSlot 0 c := by
  by_cases full : k.state = .live ∧ v = LIMIT
  · simp [State.takeSequence, current, State.evaluateSpent, Counters.atLimit, full, raiseSlot_setSlot]
  · simp [State.takeSequence, current, State.evaluateSpent, Counters.atLimit, full]

end

/-- Settles O48: the verdict is `authVerdict_eq_true`, what a refusal leaves is `refuseBatch_eq`, the record stands by
`Journal.appended_stands`, and the cell takes the sequence by `takeSequence_eq`. -/
theorem authenticatorCheckTable : Obligations.AuthenticatorCheckTable := by
  constructor
  · intro s live q msg tag key engine free agrees
    refine ⟨?_, ?_, ?_⟩
    · rintro rfl
      exact execAuthenticatorCheck_detached engine
    · rintro g bank rfl agree rfl run
      rw [execAuthenticatorCheck_agrees engine (authVerdict_eq_true.mpr agree), authenticated_of_run (s := free) run]
    · rintro rfl differs
      have refused := execAuthenticatorCheck_differs engine
        (Bool.eq_false_iff.mpr fun h => differs (authVerdict_eq_true.mp h))
      obtain ⟨v, slots, e⟩ := refuseBatch_eq free .badAuth
      rw [e] at refused
      refine ⟨_, refused, rfl, rfl, f0_congr ?_, slots, rfl, rfl, rfl, rfl, rfl, rfl, rfl, rfl, rfl, rfl⟩
      exact (congrArg Slot.current (slots 0)).trans rfl
  · rintro s live g v k rest queue copy place current rfl
    have completes := execWriteComplete_of_place_nil queue (by simp [State.copyDue, copy]) place
    refine ⟨{ s.journal.appended (.floor 0 k.generation v none) true with queue := rest, failures := 0 }, rfl, place, rfl, rfl,
      s.journal.appended_stands true _, ?_⟩
    intro full c stored u stripped
    have took : stored.takeSequence k.generation v = u := takeSequence_eq (s := stored) current v
    have renewal : u.renewal = s.renewal := by by_cases h : full <;> simp only [u, h] <;> rfl
    have acts : exec .writeComplete s = .next (if live then (stored.takeSequence k.generation v).beginSteps
        else stored.takeSequence k.generation v).settle := completes
    rw [acts, took, State.beginSteps, renewal]

end Sys2Proof.Machine
end

section
/-! PROOFS. The steps stage (R82 to R86): UNWRAP, the checks of a step, the bank of a NEXT cell, and the order in which steps are taken in
hand. -/

namespace Sys2Proof.Machine

/-! ## UNWRAP (R61, R86) -/

section
variable {s : State} {blob : Blob} {slot : Fin 24} {g : Nat} {bank : Fin 3} {key : Option (Nat × Fin 3)}

theorem execUnwrap_detached (engine : s.engine = some (.check false (.unwrap blob slot g bank) key)) :
    exec .unwrap s = .next (State.settle { s with engine := none }) := by
  change execUnwrap s = _
  simp [execUnwrap, engine]

section
variable {i : Nat} {r : StepRecord} (engine : s.engine = some (.check true (.unwrap blob slot g bank) key))
  (stage : s.renewal.checking = some (.unwrap i)) (record : s.renewal.buffer[i]? = some r)
include engine stage record

theorem execUnwrap_good {k : Key} (good : s.unwrapVerdict blob slot g key = some k) :
    exec .unwrap s = .next (({ s with engine := none } : State).unwrapped i r.part slot g bank k).settle := by
  change execUnwrap s = _
  simp [execUnwrap, engine, good, State.takeUnwrap, stage, record]

theorem execUnwrap_bad (bad : s.unwrapVerdict blob slot g key = none) :
    exec .unwrap s = .next (({ s with engine := none } : State).unwrapFailed i r).settle := by
  change execUnwrap s = _
  simp [execUnwrap, engine, bad, State.takeUnwrap, stage, record]

end

/-- In RUN the good hand-back hands the bank write over, and checking goes on where the queue has a place for it (R86, R143). -/
theorem unwrapped_of_run (run : s.supply.run = .run) (i : Nat) (part : StepPart) (k : Key) :
    let decided : Renewal := { s.renewal with
      result := { s.renewal.result with steps := s.renewal.result.steps ++ [.applied] } }
    let u := (({ s with renewal := decided } : State).setSlot slot { s.slot slot with
      next := some ⟨g, false, part.lifeAndBudget.1, part.lifeAndBudget.2, bank⟩ }).handed
        (.bankWrite slot bank g k) (.checkBank true slot)
    s.unwrapped i part slot g bank k =
      if s.journal.queue.length < 8 then u.stepsFrom (i + 1) else u.setStage (.bankPlace i) := by
  intro decided u
  let t : State := ({ s with renewal := decided } : State).setSlot slot { s.slot slot with
    next := some ⟨g, false, part.lifeAndBudget.1, part.lifeAndBudget.2, bank⟩ }
  have handed : t.handOver (.bankWrite slot bank g k) (.checkBank true slot) = u :=
    handOver_eq_handed (by simp [t, run]) (by simp [t, run]) _ _
  have unfolds : s.unwrapped i part slot g bank k =
      match t.handing with
      | .queued => (t.handOver (.bankWrite slot bank g k) (.checkBank true slot)).stepsFrom (i + 1)
      | .placed => (t.handOver (.bankWrite slot bank g k) (.checkBank true slot)).setStage (.bankPlace i)
      | .faulted => t := rfl
  rw [unfolds, handed]
  by_cases room : s.journal.queue.length < 8
  · simp [State.handing, t, run, room]
  · simp [State.handing, t, run, room]

end

/-! ## The checks of a step (R82, R83) -/

section
variable (s : State) (i : Fin 24)

/-- A step that slot 0 and an EMPTY slot alone refuse: CLEAR and POLICY (R82). -/
theorem stepFails_clear :
    s.stepFails (.clear i) = if i = 0 then some .slot0 else if (s.slot i).role = .empty then some .role else none := rfl

theorem stepFails_policy (y : Policy) (user notify : Option PortSet) :
    s.stepFails (.policy i y user notify) =
      if i = 0 then some .slot0 else if (s.slot i).role = .empty then some .role else none := rfl

theorem stepFails_endGrace :
    s.stepFails (.endGrace i) = if i = 0 ∨ (s.slot i).role = .empty ∨ (s.slot i).role = .issue then some .role
      else if (s.slot i).prior = none then some .grace else none := by
  simp only [State.stepFails, ite_either, Option.isNone_iff_eq_none]

theorem stepFails_install (g : Nat) (blob : Blob) (life budget : Option Nat) (define : Option DefinePart) (y : Option Policy) :
    s.stepFails (.install i g blob life budget define y) =
      if (define.isSome = true ∧ (s.slot i).role ≠ .empty) ∨ (define = none ∧ (s.slot i).role = .empty) then some .define
      else if i = 0 ∧ y.isSome = true then some .slot0
      else if budget.isSome = true ∧ ((s.slot i).role = .accept ∨ (s.slot i).role = .renew ∨ ∃ d ∈ define, d.role = .accept)
      then some .role
      else if (∃ k ∈ (s.slot i).current, g ≤ k.generation) ∨ ∃ k ∈ (s.slot i).prior, g ≤ k.generation then some .gen
      else none := by
  have accept : define.any (fun d => decide (d.role = .accept)) = true ↔ ∃ d ∈ define, d.role = .accept := by
    cases define <;> simp
  have current : (s.slot i).current.any (fun c => decide (g ≤ c.generation)) = true ↔
      ∃ k ∈ (s.slot i).current, g ≤ k.generation := by cases (s.slot i).current <;> simp
  have prior : (s.slot i).prior.any (fun c => decide (g ≤ c.generation)) = true ↔
      ∃ k ∈ (s.slot i).prior, g ≤ k.generation := by cases (s.slot i).prior <;> simp
  simp only [State.stepFails, ite_either, Option.isNone_iff_eq_none, accept, current, prior]

/-- A LIFECYCLE step passes from FACTORY to OPERATIONAL once slot 0 has been or is to be renewed, and to RETIRED from either (R83). -/
theorem lifecyclePasses_iff (target : LifeCycle) :
    s.lifecyclePasses target = true ↔
      (s.supply.lifeCycle = .factory ∧ target = .operational ∧
        ((∃ k ∈ (s.slot 0).current, 1 < k.generation) ∨ ∃ x ∈ s.renewal.buffer.zip s.renewal.result.steps,
          x.2 = .applied ∧ ∃ g blob life budget define y, x.1.part = .install 0 g blob life budget define y)) ∨
      ((s.supply.lifeCycle = .factory ∨ s.supply.lifeCycle = .operational) ∧ target = .retired) := by
  have renewed : (s.slot 0).current.any (fun c => decide (1 < c.generation)) = true ↔
      ∃ k ∈ (s.slot 0).current, 1 < k.generation := by cases (s.slot 0).current <;> simp
  by_cases operating : s.supply.lifeCycle = .factory ∧ target = .operational
  · obtain ⟨factory, rfl⟩ := operating
    simp only [State.lifecyclePasses, factory, Bool.or_eq_true, renewed, List.any_eq_true, true_and, reduceCtorEq, and_false,
      or_false]
    refine or_congr_right (exists_congr fun x => and_congr_right fun _ => ?_)
    obtain ⟨⟨index, required, part, bytes⟩, outcome⟩ := x
    cases part <;> simp
  · unfold State.lifecyclePasses
    cases life : s.supply.lifeCycle <;> cases target <;> simp_all

theorem stepFails_lifecycle (target : LifeCycle) (code : Option Nat) :
    s.stepFails (.lifecycle target code) = if s.lifecyclePasses target then none else some .lifecycle := rfl

end

/-! ## The bank of a NEXT cell (R13) -/

/-- The lowest bank that is neither of two banks, where there are two. -/
def lowestUnused (a b : Option (Fin 3)) : Fin 3 :=
  if ¬ (a = some 0 ∨ b = some 0) then 0 else if ¬ (a = some 1 ∨ b = some 1) then 1 else 2

theorem lowestUnused_spec : ∀ a b : Option (Fin 3),
    a ≠ some (lowestUnused a b) ∧ b ≠ some (lowestUnused a b) ∧ ∀ x < lowestUnused a b, a = some x ∨ b = some x
  | none, none => by decide
  | none, some b => by revert b; decide
  | some a, none => by revert a; decide
  | some a, some b => by revert a b; decide

theorem freeBank_eq (c : Slot) :
    c.freeBank = lowestUnused (c.current.map fun k => k.bank) (c.prior.map fun k => k.bank) := by
  cases current : c.current <;> cases prior : c.prior <;> simp [Slot.freeBank, lowestUnused, current, prior]

/-- The lowest of a slot's banks that neither its CURRENT nor its PRIOR uses. -/
theorem freeBank_spec (c : Slot) :
    (∀ k ∈ c.current, k.bank ≠ c.freeBank) ∧ (∀ k ∈ c.prior, k.bank ≠ c.freeBank) ∧
    ∀ b < c.freeBank, (∃ k ∈ c.current, k.bank = b) ∨ ∃ k ∈ c.prior, k.bank = b := by
  have spec := lowestUnused_spec (c.current.map fun k => k.bank) (c.prior.map fun k => k.bank)
  rw [← freeBank_eq] at spec
  simpa using spec

/-! ## Steps taken in hand (R82, R84, R86) -/

section
variable {s : State} {n : Nat}

theorem stepsFrom_of_length_le (done : s.renewal.buffer.length ≤ n) : s.stepsFrom n = (s.setStage .images).tryImages := by
  rw [State.stepsFrom, List.drop_eq_nil_of_le done, State.takeSteps]

section
variable {r : StepRecord} (record : s.renewal.buffer[n]? = some r)
include record

/-- The step in hand is the first of those not yet decided. -/
theorem drop_eq_cons : s.renewal.buffer.drop n = r :: s.renewal.buffer.drop (n + 1) := by
  obtain ⟨h, e⟩ := List.getElem?_eq_some_iff.mp record
  rw [← e]
  exact List.drop_eq_getElem_cons h

theorem stepsFrom_required {e : StepReason} (fails : s.stepFails r.part = some e) (required : r.required = true) :
    s.stepsFrom n = s.refuseBatch (.stepFailed r.index e) := by
  rw [State.stepsFrom, drop_eq_cons record, State.takeSteps, fails]
  exact if_pos required

theorem stepsFrom_dropped {e : StepReason} (fails : s.stepFails r.part = some e) (optional : r.required = false) :
    s.stepsFrom n = (s.addOutcome (.dropped e)).stepsFrom (n + 1) := by
  rw [State.stepsFrom, drop_eq_cons record, State.takeSteps, fails]
  exact if_neg (by simp [optional])

theorem stepsFrom_install {i : Fin 24} {g : Nat} {blob : Blob} {life budget : Option Nat} {define : Option DefinePart}
    {y : Option Policy} (passes : s.stepFails r.part = none) (part : r.part = .install i g blob life budget define y) :
    s.stepsFrom n = (s.setStage (.unwrap n)).present (.unwrap blob i g (s.slot i).freeBank) := by
  rw [State.stepsFrom, drop_eq_cons record, State.takeSteps, passes, part]

theorem stepsFrom_applied (passes : s.stepFails r.part = none)
    (plain : ∀ i g blob life budget define y, r.part ≠ .install i g blob life budget define y) :
    s.stepsFrom n = (s.addOutcome .applied).stepsFrom (n + 1) := by
  rw [State.stepsFrom, drop_eq_cons record, State.takeSteps, passes]
  cases part : r.part with
  | install i g blob life budget define y => exact absurd part (plain i g blob life budget define y)
  | _ => rfl

end

end

/-- Settles O49: the event by its verdict, the tables of `State.stepFails`, and one step in hand by `State.takeSteps`. -/
theorem unwrapTable : Obligations.UnwrapTable := by
  refine ⟨fun s blob slot g bank key engine => execUnwrap_detached engine, ?_, ?_, ?_⟩
  · intro s blob slot g bank key i r engine stage record free decided verdict
    have same : verdict = s.unwrapVerdict blob slot g key := by cases key <;> rfl
    rw [same]
    cases out : s.unwrapVerdict blob slot g key with
    | some k =>
      intro run u
      exact (execUnwrap_good engine stage record out).trans
        (congrArg (fun w => Host.Outcome.next (State.settle w)) (unwrapped_of_run (s := free) run i r.part k))
    | none =>
      have bad := execUnwrap_bad engine stage record out
      refine ⟨fun optional => ?_, fun required => ?_⟩
      · rw [bad, State.unwrapFailed, if_neg (by simp [optional])]
        rfl
      · obtain ⟨v, slots, e⟩ := refuseBatch_eq free (.stepFailed r.index .wrap)
        rw [State.unwrapFailed, if_pos required, e] at bad
        exact ⟨_, bad, rfl, rfl, rfl, rfl, rfl, rfl, rfl, rfl, rfl, rfl, slots⟩
  · intro s i role plain
    have plain_of {part : StepPart} (h : s.stepFails part =
        if i = 0 then some .slot0 else if role = .empty then some .role else none) : plain part :=
      ⟨fun zero => by rw [h, if_pos zero], fun other empty => by rw [h, if_neg other, if_pos empty],
        fun other defined => by rw [h, if_neg other, if_neg defined]⟩
    refine ⟨plain_of (stepFails_clear s i), fun y user notify => plain_of (stepFails_policy s i y user notify), ?_, ?_, ?_, ?_, ?_,
      freeBank_spec _⟩
    · exact fun h => (stepFails_endGrace s i).trans (if_pos h)
    · intro other defined accepts prior
      rw [stepFails_endGrace, if_neg (not_or.mpr ⟨other, not_or.mpr ⟨defined, accepts⟩⟩), if_pos prior]
    · intro other defined accepts prior
      rw [stepFails_endGrace, if_neg (not_or.mpr ⟨other, not_or.mpr ⟨defined, accepts⟩⟩), if_neg prior]
    · intro g blob life budget define y fails misfit fixed unbudgeted old
      have table : fails = _ := stepFails_install s i g blob life budget define y
      exact ⟨fun h => table.trans (if_pos h), fun h1 h => table.trans ((if_neg h1).trans (if_pos h)),
        fun h1 h2 h => table.trans ((if_neg h1).trans ((if_neg h2).trans (if_pos h))),
        fun h1 h2 h3 h => table.trans ((if_neg h1).trans ((if_neg h2).trans ((if_neg h3).trans (if_pos h)))),
        fun h1 h2 h3 h => table.trans ((if_neg h1).trans ((if_neg h2).trans ((if_neg h3).trans (if_neg h))))⟩
    · intro target code renewed passes
      rw [stepFails_lifecycle]
      exact ⟨fun h => if_pos ((lifecyclePasses_iff s target).mpr h), fun h => if_neg (mt (lifecyclePasses_iff s target).mp h)⟩
  · intro s n
    refine ⟨stepsFrom_of_length_le, fun r record => ⟨fun e => stepsFrom_required record, fun e => stepsFrom_dropped record,
      fun passes => ?_⟩⟩
    cases part : r.part with
    | install i g blob life budget define y => exact stepsFrom_install record passes part
    | _ => exact stepsFrom_applied record passes (by simp [part])

end Sys2Proof.Machine
end

section
/-! PROOFS. ACTIVATE (chapter 5, R103): its refusals, the commit start test it makes (R105), and the table hold granted at its take
(R110). -/

namespace Sys2Proof.Machine

/-! ## The commit start test (R105) -/

section
variable {s : State}

theorem commitStart_of_pinned (pinned : s.namedPinned = true) : s.commitStart = s := if_neg (by simp [pinned])

theorem commitStart_of_hold (held : s.arbiter.hold ≠ .none) : s.commitStart = s := if_neg (by simp [held])

theorem commitStart_requests (armed : s.renewal.state = .armed) (clear : s.renewal.disarm = false)
    (flag : s.renewal.activation = true) (unpinned : s.namedPinned = false) (run : s.supply.run = .run)
    (hold : s.arbiter.hold = .none) : s.commitStart = { s with arbiter := { s.arbiter with hold := .requested } } :=
  if_pos ⟨armed, clear, flag, unpinned, run, hold⟩

/-- The test reads no port, so a frame may as well be taken after it. -/
theorem commitStart_frameTaken (s : State) (p : Port) : (s.frameTaken p).commitStart = s.commitStart.frameTaken p := by
  rw [State.commitStart, State.commitStart, apply_ite (State.frameTaken · p)]
  cases p <;> rfl

theorem State.Holds.commitStart {p : Port} {code : Byte} (holds : s.Holds p code) : s.commitStart.Holds p code := by
  cases p <;> simpa [State.Holds, State.port] using holds

end

/-! ## The grant of the table hold (R64, R110) -/

section
variable {s t : State}

/-- An event that ends with one grant, after which the part is at rest (R64). -/
theorem settle_of_grant (granted : s.grant = some t) (rest : t.AtRest) : s.settle = t := by
  rw [State.settle, State.grants, granted]
  dsimp only
  rw [grants_of_grant_none _ rest.1, drain_of_not_flush rest.2]

/-- A requested hold is granted once the engine is free, no operation is resumed and none is in the engine's charge. -/
theorem grant_of_requested_hold (free : s.engine = none) (resumed : s.arbiter.resumed = [])
    (requested : s.arbiter.hold = .requested) (charge : ∀ x, s.inCharge x = false) : s.grant = some s.grantHold := by
  simp [State.grant, free, resumed, requested, charge]

/-- In RUN the grant hands COMMIT_BEGIN over. -/
theorem grantHold_of_run (run : s.supply.run = .run) :
    s.grantHold = ({ s with
      arbiter := { s.arbiter with hold := .granted }
      renewal := { s.renewal with state := .committing }
      commit := some ⟨s.time.t, false, .begin, [], none, []⟩ } : State).handed
        (.append (.commitBegin s.renewal.sequence s.time.t)) .commitBegin :=
  handOver_eq_handed (by simp [run]) (by simp [run]) _ _

/-- With the hold granted nothing else is (R64), so the event ends there. -/
theorem settle_of_requested_hold (free : s.engine = none) (resumed : s.arbiter.resumed = [])
    (requested : s.arbiter.hold = .requested) (charge : ∀ x, s.inCharge x = false) (run : s.supply.run = .run) :
    s.settle = s.grantHold := by
  refine settle_of_grant (grant_of_requested_hold free resumed requested charge) ⟨grant_none_of_hold ?_, ?_⟩
  · rw [grantHold_of_run run, State.handed_arbiter]
  · rw [grantHold_of_run run, State.handed_supply, run]
    decide

end

/-! ## An answer at a port beside the rest of an event -/

section
variable (s : State) (p : Port) (st : Status) (b : List Byte)

theorem answered_handed (w : Write) (r : Requester) : (s.answered p st b).handed w r = (s.handed w r).answered p st b := by
  by_cases room : s.journal.queue.length < 8 <;> cases p <;> simp [State.handed, State.answered, State.setPort, State.port, room]

theorem grantHold_answered (run : s.supply.run = .run) : (s.answered p st b).grantHold = s.grantHold.answered p st b := by
  rw [grantHold_of_run run, grantHold_of_run (by simp [State.answered, run]), ← answered_handed]
  cases p <;> rfl

/-- An answered port has no request in flight, so that the engine's charge is that of the other port (R47). -/
theorem inCharge_answered (other : s.inCharge p.other = false) (x : Port) : (s.answered p st b).inCharge x = false := by
  cases p <;> cases x
  case M.M | L.L => rfl
  case M.L | L.M => exact other

variable {s p st b}

/-- A port answered at an event at which the requested hold is granted. -/
theorem settle_answered_of_requested_hold (free : s.engine = none) (resumed : s.arbiter.resumed = [])
    (requested : s.arbiter.hold = .requested) (other : s.inCharge p.other = false) (run : s.supply.run = .run) :
    (s.answered p st b).settle = s.grantHold.answered p st b := by
  rw [← grantHold_answered s p st b run]
  exact settle_of_requested_hold (by simpa [State.answered] using free) (by simpa [State.answered] using resumed)
    (by simpa [State.answered] using requested) (inCharge_answered s p st b other) (by simpa [State.answered] using run)

end

/-! ## ACTIVATE (R103) -/

/-- The activation-requested flag set (R101). -/
def State.activated (s : State) : State := { s with renewal := { s.renewal with activation := true } }

section
variable {s : State} {p : Port} {q : Nat}

theorem setActivation_of_clear (clear : s.renewal.disarm = false) : s.setActivation = s.activated := if_neg (by simp [clear])

theorem activateBatch_of_unarmed (early : s.renewal.state = .staging ∨ s.renewal.state = .checking) :
    s.activateBatch p q = s.refuse p .wrongState := by
  rcases early with state | state <;> simp only [State.activateBatch, state]

theorem activateBatch_of_idle (idle : s.renewal.state = .idle) :
    s.activateBatch p q = s.refuse p (if q = s.renewal.lastCommitted then .tooLate else .wrongState) := by
  simp only [State.activateBatch, idle, apply_ite (s.refuse p)]

theorem activateBatch_of_other (late : s.renewal.state = .armed ∨ s.renewal.state = .committing)
    (other : q ≠ s.renewal.sequence) : s.activateBatch p q = s.refuse p .wrongBatch := by
  rcases late with state | state <;> simp only [State.activateBatch, state, if_pos other]

theorem activateBatch_of_committing (committing : s.renewal.state = .committing) (own : q = s.renewal.sequence) :
    s.activateBatch p q = s.refuse p .tooLate := by
  simp only [State.activateBatch, committing, if_neg (not_not_intro own)]

/-- ACTIVATE of the armed batch sets the flag, and the commit start test that follows decides the answer (R105). -/
theorem activateBatch_of_armed (armed : s.renewal.state = .armed) (own : q = s.renewal.sequence) (clear : s.renewal.disarm = false) :
    let t := s.activated.commitStart
    s.activateBatch p q = t.complete p (if t.arbiter.hold = .requested then .ok else .deferred) [] := by
  simp only [State.activateBatch, armed, if_neg (not_not_intro own), setActivation_of_clear clear]

section
variable (holds : s.Holds p 0x34) (port : s.BatchPort p) (frame : sequenceFrame (s.payload p) = .ok q)
include holds port frame

theorem execActivate_of_holds : exec (.activate p) s = .next ((s.windowReset.frameTaken p).activateBatch p q).settle :=
  congrArg Host.Outcome.next (atStop_batch holds port (by decide) frame fun u a => u.activateBatch p a)

theorem execActivate_refused (rest : s.AtRest) {e : Status}
    (refused : (s.windowReset.frameTaken p).activateBatch p q = (s.windowReset.frameTaken p).refuse p e) :
    exec (.activate p) s = .next (s.windowReset.answered p e []) := by
  rw [execActivate_of_holds holds port frame, refused, settle_refuse_frameTaken holds.windowReset rest.windowReset]

theorem execActivate_of_idle (rest : s.AtRest) (idle : s.renewal.state = .idle) :
    exec (.activate p) s = .next (s.answered p (if q = s.renewal.lastCommitted then .tooLate else .wrongState) []) := by
  have unstaged : s.windowReset = s := windowReset_of_ne_staging (by simp [idle])
  rw [execActivate_refused holds port frame rest (activateBatch_of_idle (by simpa using idle)), frameTaken_renewal, unstaged]

variable (armed : s.renewal.state = .armed) (own : q = s.renewal.sequence) (clear : s.renewal.disarm = false)
include armed own clear

/-- What ACTIVATE of the armed batch leaves before the event ends: the flag set, the test made, the port answered. -/
theorem execActivate_of_armed :
    let t := s.activated.commitStart
    exec (.activate p) s = .next (t.answered p (if t.arbiter.hold = .requested then .ok else .deferred) []).settle := by
  intro t
  have flagged : (s.frameTaken p).activated = s.activated.frameTaken p := by cases p <;> rfl
  have holds' : t.Holds p 0x34 := State.Holds.commitStart (holds.withRenewal _)
  have arbiter : (t.frameTaken p).arbiter = t.arbiter := t.setPort_arbiter p _
  rw [execActivate_of_holds holds port frame, windowReset_of_ne_staging (by simp [armed]),
    activateBatch_of_armed (by simpa using armed) (by simpa using own) (by simpa using clear), flagged, commitStart_frameTaken, arbiter,
    complete_frameTaken holds']

/-- Where the test requests no hold, the part is at rest after the answer as it was before. -/
theorem execActivate_of_no_request (rest : s.AtRest) (stands : s.activated.commitStart = s.activated) :
    exec (.activate p) s = .next (s.activated.answered p (if s.arbiter.hold = .requested then .ok else .deferred) []) := by
  have rest' : s.activated.AtRest := rest.withRenewal _
  rw [execActivate_of_armed holds port frame armed own clear, stands]
  exact congrArg Host.Outcome.next (settle_of_atRest (rest'.setPort holds.2.2 (.inl rfl)))

/-- With no named slot pinned the hold is requested and the answer is OK. -/
theorem execActivate_requests (hold : s.arbiter.hold = .none) (unpinned : s.namedPinned = false) :
    exec (.activate p) s = .next (({ s.activated with
      arbiter := { s.arbiter with hold := .requested } } : State).answered p .ok []).settle := by
  have requests := commitStart_requests (s := s.activated) armed clear rfl unpinned port.2 hold
  rw [execActivate_of_armed holds port frame armed own clear, requests]
  rfl

end

end

/-- Settles O38: the refusals are those of `State.activateBatch`; for the armed batch the commit start test decides, and the hold that it
requests waits for a busy engine or is granted to the commit by `settle_of_requested_hold`. -/
theorem activateTable : Obligations.ActivateTable := by
  intro p s q holds rest port frame same
  have refused {e : Status} := execActivate_refused holds port frame rest (e := e)
  refine ⟨fun early => ?_, fun idle last => ?_, fun idle last => ?_, fun late other => ?_, fun committing own => ?_,
    fun armed own clear hold pinned => ?_, fun armed own clear hold unpinned busy => ?_, fun armed own clear hold => ?_,
    fun armed own clear idle other unpinned => ?_⟩
  · exact refused (activateBatch_of_unarmed (by simpa using early))
  · rw [execActivate_of_idle holds port frame rest idle, if_pos last]
  · rw [execActivate_of_idle holds port frame rest idle, if_neg last]
  · have unstaged : s.renewal.state ≠ .staging := by rcases late with state | state <;> simp [state]
    rw [refused (activateBatch_of_other (by simpa using late) (by simpa using other)), windowReset_of_ne_staging unstaged]
  · rw [refused (activateBatch_of_committing (by simpa using committing) (by simpa using own)),
      windowReset_of_ne_staging (by simp [committing])]
  · rw [execActivate_of_no_request holds port frame armed own clear rest (commitStart_of_pinned pinned), hold]
    rfl
  · rw [execActivate_requests holds port frame armed own clear hold unpinned, settle_of_atRest ⟨grant_none_of_engine ?_, ?_⟩]
    · rfl
    · rw [State.answered, State.setPort_engine]
      exact busy
    · rw [State.answered, State.setPort_supply]
      exact fun flush => absurd (flush.symm.trans port.2) (by decide)
  · have held : s.activated.arbiter.hold ≠ .none := by simp [State.activated, hold]
    rw [execActivate_of_no_request holds port frame armed own clear rest (commitStart_of_hold held), hold]
    rfl
  · obtain ⟨free, resumed, hold, -⟩ := idle
    rw [execActivate_requests holds port frame armed own clear hold unpinned, settle_answered_of_requested_hold, grantHold_of_run]
    · rfl
    · exact port.2
    · exact free
    · exact resumed
    · rfl
    · cases p <;> exact other
    · exact port.2

end Sys2Proof.Machine
end

section
/-! PROOFS. Part time (chapter 6): the expiry of a cell, and the table of ticks with what the deadlines of a new T leave alone. -/

namespace Sys2Proof.Machine

/-! ## The expiry (R132) -/

section
variable {s : State} {i : Fin 24} {k : Current}

/-- Where the key table evaluates deadlines, a slot's deadline event is its deadline step (R124, R175). -/
theorem slotEvent_of_evaluates (run : s.supply.run ≠ .starting) (life : s.supply.lifeCycle ≠ .retired) (i : Fin 24)
    (f : Fin 24 → State) : s.slotEvent i.val f = f i := by
  simp [State.slotEvent, State.evaluates, run, life]

theorem expiryDue_iff (k : Current) (t : Nat) :
    k.expiryDue t = true ↔ k.state = .live ∧ ∃ l ∈ k.lifetime, k.activation + l ≤ t := by
  simp [Current.expiryDue, Current.past, Option.any_eq_true]

theorem expire_of_due (current : (s.slot i).current = some k) (due : k.expiryDue s.time.t = true) :
    s.expire i = s.slotDemand i { s.slot i with current := some { k with state := .expired } }
      ⟨.expired, some i, some k.generation, none, s.time.t⟩ := by
  rw [State.expire, current, ← raiseSlot_setSlot (by rfl)]
  exact if_pos due

theorem expire_of_not_due (current : (s.slot i).current = some k) (due : k.expiryDue s.time.t ≠ true) : s.expire i = s := by
  rw [State.expire, current]
  exact if_neg due

end

/-- Settles O14: the event is the expiry of the slot, which acts exactly where `Current.expiryDue` holds. -/
theorem expiryExpiresTheCell : Obligations.ExpiryExpiresTheCell := by
  intro s i k run life current
  have event : exec (.expiry i.val) s = .next (s.expire i) := congrArg Host.Outcome.next (slotEvent_of_evaluates run life i _)
  rw [event]
  refine ⟨fun l life live past => ?_, fun stays => ?_⟩
  · rw [expire_of_due current ((expiryDue_iff k _).mpr ⟨live, l, life, past⟩)]
  · have due : k.expiryDue s.time.t ≠ true := by
      rw [Ne, expiryDue_iff]
      rintro ⟨live, l, life, past⟩
      rcases stays with ended | unlimited | ⟨l', life', ahead⟩
      · exact ended live
      · simp [unlimited] at life
      · cases Option.mem_unique life life'
        omega
    rw [expire_of_not_due current due]

/-! ## The end of an event leaves the time base (R64, R164) -/

theorem State.SameBesides.time_eq {s u : State} {i : Fin 24} (same : s.SameBesides i u) : u.time = s.time := by
  obtain ⟨-, -, -, -, -, -, -, time, -⟩ := same.frame
  exact time

section
variable (s : State) (i : Fin 24) (p : Port)

theorem beginWait_time (r : WaitRecord) : (s.beginWait i p r).time = s.time := by
  unfold State.beginWait
  split <;> simp

theorem issueStep_time (c : Current) : (s.issueStep p i c).time = s.time := by
  unfold State.issueStep
  split
  · split
    · exact ((State.evaluateLow_sameBesides _ i).trans (State.evaluateSpent_sameBesides _ i)).time_eq
    · exact beginWait_time s i p _
  · rfl

theorem enterMakeTag_time (slot : Nat) (expected : Option Nat) : (s.enterMakeTag p slot expected).time = s.time := by
  unfold State.enterMakeTag
  split
  · exact s.refuse_time p _
  · split
    · rfl
    · exact issueStep_time s _ p _

theorem enterCheckTag_time (slot generation counter : Nat) (tag : Tag) :
    (s.enterCheckTag p slot generation counter tag).time = s.time := by
  unfold State.enterCheckTag
  split
  · exact s.refuse_time p _
  · split
    · rfl
    · split
      · exact s.refuse_time p _
      · split
        · exact s.refuse_time p _
        · rfl

theorem enterPin_time (slot : Nat) : (s.enterPin p slot).time = s.time := by
  unfold State.enterPin
  split
  · exact s.refuse_time p _
  · split <;> simp

theorem enterUnpin_time (slot : Nat) : (s.enterUnpin p slot).time = s.time := by
  unfold State.enterUnpin
  split <;> simp

theorem enter_time : (s.enter p).time = s.time := by
  unfold State.enter
  split
  · exact enterMakeTag_time s p _ _
  · exact enterCheckTag_time s p _ _ _ _
  · exact enterPin_time s p _
  · exact enterUnpin_time s p _
  · rfl
  · rfl

theorem grantResumed_time (r : Resumed) : (s.grantResumed r).time = s.time := by
  unfold State.grantResumed
  split
  · exact s.complete_time _ _ _
  · exact enter_time s _

/-- Every grant of the arbiter leaves the time base as it is. -/
theorem grant_time {s t : State} (granted : s.grant = some t) : t.time = s.time := by
  unfold State.grant at granted
  split at granted
  · cases granted
  split at granted
  · cases granted
    exact grantResumed_time _ _
  split at granted
  · cases granted
    exact State.handOver_time _ _ _
  split at granted
  · cases granted
    rfl
  split at granted
  · cases granted
    exact enter_time _ _
  split at granted <;> cases granted
  rfl

theorem grants_time (n : Nat) : (State.grants n s).time = s.time := by
  induction n generalizing s with
  | zero => rfl
  | succ n ih =>
    rw [State.grants]
    split
    next granted => rw [ih, grant_time granted]
    next => rfl

theorem settle_time : s.settle.time = s.time := by rw [State.settle, State.drain_time, grants_time]

end

/-! ## What the deadlines of a new T leave alone (R131) -/

/-- The fields of a CURRENT cell that no deadline changes: all but its state and its life-warned mark (R132, R133). -/
def Current.lasting (k : Current) : Nat × Nat × Option Nat × Counters × Fin 3 × Bool :=
  (k.generation, k.activation, k.lifetime, k.counters, k.bank, k.warned)

/-- Slot `d` is slot `c` after deadlines: nothing but a life-warned mark, a cell's state, a PRIOR gone or a pin gone differs. -/
structure Slot.KeptByDeadlines (c d : Slot) : Prop where
  role : d.role = c.role
  userMap : d.userMap = c.userMap
  notifyMap : d.notifyMap = c.notifyMap
  policy : d.policy = c.policy
  next : d.next = c.next
  wait : d.wait = c.wait
  current : d.current.map Current.lasting = c.current.map Current.lasting
  prior : ∀ k ∈ d.prior, c.prior = some k

namespace Slot.KeptByDeadlines

variable {c d e : Slot}

theorem refl (c : Slot) : c.KeptByDeadlines c := ⟨rfl, rfl, rfl, rfl, rfl, rfl, rfl, fun _ prior => prior⟩

theorem trans (h : c.KeptByDeadlines d) (h' : d.KeptByDeadlines e) : c.KeptByDeadlines e where
  role := h'.role.trans h.role
  userMap := h'.userMap.trans h.userMap
  notifyMap := h'.notifyMap.trans h.notifyMap
  policy := h'.policy.trans h.policy
  next := h'.next.trans h.next
  wait := h'.wait.trans h.wait
  current := h'.current.trans h.current
  prior k prior := h.prior k (h'.prior k prior)

theorem setCurrent {k k' : Current} (current : c.current = some k) (same : k'.lasting = k.lasting) :
    c.KeptByDeadlines { c with current := some k' } :=
  { refl c with current := by simp [current, same] }

theorem dropPrior (c : Slot) : c.KeptByDeadlines { c with prior := none } := { refl c with prior := nofun }

theorem dropPin (c : Slot) : c.KeptByDeadlines { c with pin := none } := { refl c with }

end Slot.KeptByDeadlines

/-- State `u` is `s` after deadlines: slots, demand queues, the arbiter and the renewal engine alone may differ, the slots as said. -/
structure State.KeptByDeadlines (s u : State) : Prop where
  time : u.time = s.time
  journal : u.journal = s.journal
  supply : u.supply = s.supply
  engine : u.engine = s.engine
  commit : u.commit = s.commit
  portM : u.portM = s.portM
  portL : u.portL = s.portL
  slot : ∀ i, (s.slot i).KeptByDeadlines (u.slot i)

namespace State.KeptByDeadlines

variable {s t u : State} {i : Fin 24}

theorem refl (s : State) : s.KeptByDeadlines s := ⟨rfl, rfl, rfl, rfl, rfl, rfl, rfl, fun _ => .refl _⟩

theorem trans (h : s.KeptByDeadlines t) (h' : t.KeptByDeadlines u) : s.KeptByDeadlines u where
  time := h'.time.trans h.time
  journal := h'.journal.trans h.journal
  supply := h'.supply.trans h.supply
  engine := h'.engine.trans h.engine
  commit := h'.commit.trans h.commit
  portM := h'.portM.trans h.portM
  portL := h'.portL.trans h.portL
  slot i := (h.slot i).trans (h'.slot i)

theorem of_sameBesides (same : s.SameBesides i u) (slot : (s.slot i).KeptByDeadlines (u.slot i)) : s.KeptByDeadlines u := by
  obtain ⟨engine, journal, -, portM, portL, -, commit, time, supply⟩ := same.frame
  refine ⟨time, journal, supply, engine, commit, portM, portL, fun j => ?_⟩
  by_cases here : j = i
  · exact here ▸ slot
  · rw [same.slot_ne here]
    exact .refl _

theorem setSlot {c : Slot} (kept : (s.slot i).KeptByDeadlines c) : s.KeptByDeadlines (s.setSlot i c) :=
  of_sameBesides (.setSlot s i c) (by rwa [State.slot_setSlot])

theorem setSlot_raise {c : Slot} (kept : (s.slot i).KeptByDeadlines c) (w : PortSet) (d : Demand) :
    s.KeptByDeadlines ((s.setSlot i c).raise w d) :=
  of_sameBesides ((State.SameBesides.setSlot s i c).trans (.raise _ i w d)) (by rwa [State.raise_slot, State.slot_setSlot])

theorem commitStart (s : State) : s.KeptByDeadlines s.commitStart := by
  constructor <;> simp [State.slot, Slot.KeptByDeadlines.refl]

end State.KeptByDeadlines

section
variable (s : State) (i : Fin 24)

theorem lifeWarning_kept : s.KeptByDeadlines (s.lifeWarning i) := by
  unfold State.lifeWarning
  split
  next current =>
    split
    · exact .setSlot_raise (.setCurrent current (by rfl)) _ _
    · exact .refl s
  · exact .refl s

theorem expire_kept : s.KeptByDeadlines (s.expire i) := by
  unfold State.expire
  split
  next current =>
    split
    · exact .setSlot_raise (.setCurrent current (by rfl)) _ _
    · exact .refl s
  · exact .refl s

theorem endGrace_kept : s.KeptByDeadlines (s.endGrace i) := by
  unfold State.endGrace
  split
  · split
    · exact .setSlot (.dropPrior _)
    · exact .refl s
  · exact .refl s

theorem lapsePin_kept : s.KeptByDeadlines (s.lapsePin i) := by
  unfold State.lapsePin
  split
  · split
    · exact (State.KeptByDeadlines.setSlot_raise (.dropPin _) _ _).trans (.commitStart _)
    · exact .refl s
  · exact .refl s

theorem slotDeadlines_kept : s.KeptByDeadlines (s.slotDeadlines i) := by
  unfold State.slotDeadlines
  split
  · exact (((lifeWarning_kept s i).trans (expire_kept _ i)).trans (endGrace_kept _ i)).trans (lapsePin_kept _ i)
  · exact .refl s

theorem foldl_slotDeadlines_kept (l : List (Fin 24)) : s.KeptByDeadlines (l.foldl State.slotDeadlines s) := by
  induction l generalizing s with
  | nil => exact .refl s
  | cons i l ih => exact (slotDeadlines_kept s i).trans (ih _)

/-- Scheduled activation changes the renewal engine and the arbiter alone (R104, R105). -/
theorem scheduledActivation_slots : s.scheduledActivation.slots = s.slots := by
  unfold State.scheduledActivation
  split
  · split
    · exact State.commitStart_slots _
    · rfl
  · rfl

theorem scheduledActivation_kept : s.KeptByDeadlines s.scheduledActivation := by
  unfold State.scheduledActivation
  split
  · split
    · have flag : s.KeptByDeadlines s.activated := ⟨rfl, rfl, rfl, rfl, rfl, rfl, rfl, fun _ => .refl _⟩
      exact flag.trans (.commitStart _)
    · exact .refl s
  · exact .refl s

theorem deadlines_kept : s.KeptByDeadlines s.deadlines := (foldl_slotDeadlines_kept s _).trans (scheduledActivation_kept _)

/-- In RETIRED the key table evaluates no deadline (R175). -/
theorem foldl_slotDeadlines_of_retired (retired : s.supply.lifeCycle = .retired) (l : List (Fin 24)) :
    l.foldl State.slotDeadlines s = s := by
  have stays (i : Fin 24) : s.slotDeadlines i = s := if_neg (by simp [State.evaluates, retired])
  induction l with
  | nil => rfl
  | cons i l ih => rw [List.foldl_cons, stays, ih]

theorem deadlines_slots_of_retired (retired : s.supply.lifeCycle = .retired) : s.deadlines.slots = s.slots := by
  rw [State.deadlines, scheduledActivation_slots, foldl_slotDeadlines_of_retired s retired]

end

/-! ## The checkpoint test (R126) -/

/-- The conditions of the checkpoint test (R126). -/
abbrev State.CheckpointDue (s : State) : Prop :=
  (s.supply.run = .run ∨ s.supply.run = .flush) ∧ s.time.checkpoint = none ∧ s.time.tb < LIMIT ∧ s.time.tb ≤ s.time.t + 32

/-- The checkpoint that the test puts in flight (R126). -/
def State.nextCheckpoint (s : State) : Nat := min (s.time.t + 64) LIMIT

/-- The checkpoint in flight, before its record is handed over (R126). -/
def State.checkpointed (s : State) : State := { s with time := { s.time with checkpoint := some s.nextCheckpoint } }

section
variable (s : State)

@[simp] theorem State.handed_time (w : Write) (r : Requester) : (s.handed w r).time = s.time := by
  unfold State.handed
  split <;> rfl

theorem State.handed_store (w : Write) (r : Requester) :
    (s.handed w r).journal.ring = s.journal.ring ∧ (s.handed w r).journal.banks = s.journal.banks := by
  unfold State.handed
  split <;> exact ⟨rfl, rfl⟩

/-- Handing a write over reads the journal alone. -/
theorem State.handed_withTime_journal (b : TimeBase) (w : Write) (r : Requester) :
    (({ s with time := b } : State).handed w r).journal = (s.handed w r).journal := by
  unfold State.handed
  split <;> rfl

theorem checkpointTest_of_due (due : s.CheckpointDue) :
    s.checkpointTest = s.checkpointed.handed (.append (.time s.nextCheckpoint)) .time := by
  have taken : s.supply.run ≠ .fault ∧ s.supply.run ≠ .starting := by rcases due.1 with run | run <;> simp [run]
  exact (if_pos due).trans (handOver_eq_handed (s := s.checkpointed) taken.1 taken.2 _ _)

theorem checkpointTest_of_not_due (due : ¬ s.CheckpointDue) : s.checkpointTest = s := if_neg due

theorem checkpointTest_time :
    s.checkpointTest.time =
      { s.time with checkpoint := if s.CheckpointDue then some s.nextCheckpoint else s.time.checkpoint } := by
  by_cases due : s.CheckpointDue
  · rw [checkpointTest_of_due s due, if_pos due, State.handed_time]
    rfl
  · rw [checkpointTest_of_not_due s due, if_neg due]

theorem checkpointTest_journal :
    s.checkpointTest.journal =
      if s.CheckpointDue then (s.handed (.append (.time s.nextCheckpoint)) .time).journal else s.journal := by
  by_cases due : s.CheckpointDue
  · rw [checkpointTest_of_due s due, if_pos due, State.checkpointed, State.handed_withTime_journal]
  · rw [checkpointTest_of_not_due s due, if_neg due]

theorem checkpointTest_store :
    s.checkpointTest.journal.ring = s.journal.ring ∧ s.checkpointTest.journal.banks = s.journal.banks := by
  rw [checkpointTest_journal]
  split
  · exact s.handed_store _ _
  · exact ⟨rfl, rfl⟩

@[simp] theorem checkpointTest_slots : s.checkpointTest.slots = s.slots := by unfold State.checkpointTest; split <;> simp
@[simp] theorem checkpointTest_engine : s.checkpointTest.engine = s.engine := by unfold State.checkpointTest; split <;> simp
@[simp] theorem checkpointTest_commit : s.checkpointTest.commit = s.commit := by unfold State.checkpointTest; split <;> simp
@[simp] theorem checkpointTest_supply : s.checkpointTest.supply = s.supply := by unfold State.checkpointTest; split <;> simp
@[simp] theorem checkpointTest_portM : s.checkpointTest.portM = s.portM := by unfold State.checkpointTest; split <;> simp
@[simp] theorem checkpointTest_portL : s.checkpointTest.portL = s.portL := by unfold State.checkpointTest; split <;> simp

end

/-! ## Ticks (R124) -/

section
variable {s : State}

/-- T has risen by 1 (R124). -/
def State.risen (s : State) : State := { s with time := { s.time with t := s.time.t + 1 } }

/-- A tick that advances T (R124). -/
theorem execTick_advances (run : s.supply.run ≠ .starting) (deferred : s.time.deferred = false) (limit : s.time.t ≠ LIMIT)
    (below : s.time.t < s.time.tb) : exec .tick s = .next s.advanceT.settle := by
  change execTick s = _
  simp [execTick, run, deferred, limit, below]

theorem execTick_discarded (stopped : s.supply.run = .starting ∨ s.time.deferred = true ∨ s.time.t = LIMIT) :
    exec .tick s = .next s := by
  change execTick s = _
  rcases stopped with starting | deferred | limit
  · exact if_pos starting
  · rw [execTick, if_pos deferred, ite_self]
  · rw [execTick, if_pos limit, ite_self, ite_self]

/-- At T = Tb a tick is deferred behind the checkpoint in flight, and discarded without one (R124). -/
theorem execTick_at_bound (run : s.supply.run ≠ .starting) (deferred : s.time.deferred = false) (limit : s.time.t ≠ LIMIT)
    (bound : s.time.t = s.time.tb) :
    exec .tick s = .next (if s.time.checkpoint.isSome then { s with time := { s.time with deferred := true } } else s) := by
  have reached : ¬ s.time.t < s.time.tb := by omega
  change execTick s = _
  rw [execTick, if_neg run, if_neg (by simp [deferred]), if_neg limit, if_neg reached, apply_ite Host.Outcome.next]

end

/-- Settles O8: the cases are those of `execTick`, and the deadlines of a T that advances keep what `State.KeptByDeadlines` says. -/
theorem tickTable : Obligations.TickTable := by
  intro s
  refine ⟨execTick_discarded, execTick_at_bound, fun run deferred limit below => ?_⟩
  have kept := deadlines_kept s.risen.checkpointTest
  obtain ⟨ring, banks⟩ := checkpointTest_store s.risen
  refine ⟨s.risen.checkpointTest.deadlines, execTick_advances run deferred limit below, settle_time _,
    kept.time.trans (checkpointTest_time _), ?_, kept.supply.trans (checkpointTest_supply _),
    kept.engine.trans (checkpointTest_engine _), kept.commit.trans (checkpointTest_commit _),
    kept.portM.trans (checkpointTest_portM _), kept.portL.trans (checkpointTest_portL _),
    (congrArg Journal.ring kept.journal).trans ring, (congrArg Journal.banks kept.journal).trans banks, fun i => ?_⟩
  · rw [kept.journal, checkpointTest_journal, apply_ite State.journal, State.risen, State.handed_withTime_journal]
    rfl
  · have slot : s.risen.checkpointTest.slot i = s.slot i := by simp [State.slot, State.risen]
    have kept := kept.slot i
    rw [slot] at kept
    obtain ⟨role, userMap, notifyMap, policy, next, wait, current, prior⟩ := kept
    refine ⟨role, userMap, notifyMap, policy, next, wait, current, prior, fun retired => ?_⟩
    have retired : s.risen.checkpointTest.supply.lifeCycle = .retired := by rwa [checkpointTest_supply]
    rw [← slot, State.slot, deadlines_slots_of_retired _ retired, State.slot]

end Sys2Proof.Machine
end

section
/-! PROOFS. The journal (chapter 7): the record of a slot write wait. -/

namespace Sys2Proof.Machine

/-! ## The record of a slot write wait (R27, R38, R55) -/

/-- While an operation occupies the engine, the end of an event changes nothing: no grant can be made, and no drain is met (R64, R164). -/
theorem settle_of_engine {s : State} (busy : s.engine.isSome = true) : s.settle = s := by
  obtain ⟨op, engine⟩ := Option.isSome_iff_exists.mp busy
  rw [State.settle, grants_of_grant_none _ (grant_none_of_engine busy)]
  simp [State.drain, State.drained, engine]

section
variable {s : State} {i : Fin 24}

theorem takeRecord_sameBesides (s : State) (i : Fin 24) (r : WaitRecord) : s.SameBesides i (s.takeRecord i r) := by
  unfold State.takeRecord
  split
  · split
    · split
      · split
        · exact .setSlot s i _
        · exact .refl s i
      · exact .refl s i
    · exact .refl s i
  · split
    · split
      · exact (State.SameBesides.setSlot s i _).trans
          ((State.evaluateLow_sameBesides _ i).trans (State.evaluateSpent_sameBesides _ i))
      · exact .refl s i
    · exact .refl s i
  · split
    · split
      · exact .setSlot s i _
      · exact .refl s i
    · exact .refl s i

section
variable {k : Current} (current : (s.slot i).current = some k)
include current

theorem takeRecord_ceiling {n c l : Nat} (counters : k.counters = .issue n c l) (v : Nat) :
    s.takeRecord i (.ceiling k.generation v) =
      s.setSlot i { s.slot i with current := some { k with counters := .issue n v l } } := by
  simp [State.takeRecord, current, counters]

theorem takeRecord_current (v : Nat) :
    s.takeRecord i (.floor k.generation v .current) =
      ((s.setSlot i { s.slot i with current := some { k with counters := .floor v v } }).evaluateLow i).evaluateSpent i := by
  simp [State.takeRecord, current]

/-- P and F of the CURRENT take the value, and the cell is evaluated with them (R38, R41). -/
theorem takeRecord_current_slot (v : Nat) :
    (s.takeRecord i (.floor k.generation v .current)).slot i =
      let k' := { k with counters := .floor v v }
      { s.slot i with current := some { k' with
          warned := k.warned || counterLowDue (s.slot i).policy k'
          state := if k'.spentDue then .spent else k.state } } := by
  rw [takeRecord_current current, State.evaluateCounter_slot (congrArg Slot.current (s.slot_setSlot i _)), State.slot_setSlot]

theorem takeRecord_current_queue (v : Nat) (x : Port) :
    (s.takeRecord i (.floor k.generation v .current)).queue x =
      let k' := { k with counters := .floor v v }
      if (s.slot i).notifyMap.has x
      then (conditionDemands i k.generation s.time.t (counterLowDue (s.slot i).policy k') k'.spentDue false false).foldl
        arrive (s.queue x)
      else s.queue x := by
  rw [takeRecord_current current, State.evaluateCounter_queue (congrArg Slot.current (s.slot_setSlot i _)),
    State.slot_setSlot, State.setSlot_queue, State.setSlot_time]

end

theorem takeRecord_prior {o : Prior} (prior : (s.slot i).prior = some o) (v : Nat) :
    s.takeRecord i (.floor o.generation v .prior) =
      s.setSlot i { s.slot i with prior := some { o with f := v, persisted := v } } := by
  simp [State.takeRecord, prior]

/-- A PRIOR that has been removed takes nothing (R55). -/
theorem takeRecord_prior_gone {g : Nat} (gone : ∀ o ∈ (s.slot i).prior, o.generation ≠ g) (v : Nat) :
    s.takeRecord i (.floor g v .prior) = s := by
  cases prior : (s.slot i).prior with
  | none => simp [State.takeRecord, prior]
  | some o => simp [State.takeRecord, prior, gone o prior]

theorem holdsCell_prior_gone {g : Nat} (gone : ∀ o ∈ (s.slot i).prior, o.generation ≠ g) : s.holdsCell i g .prior = false := by
  cases prior : (s.slot i).prior with
  | none => simp [State.holdsCell, prior]
  | some o => simp [State.holdsCell, prior, gone o prior]

/-- A record of a write wait is live of its own while its cell is there (R55). -/
def State.holdsCellOf (s : State) (i : Fin 24) : WaitRecord → Bool
  | .ceiling .. => true
  | .floor g _ position => s.holdsCell i g position

/-- The state in which the record `b` has succeeded and left the queue, before its requester acts (R144). -/
def State.recorded (s : State) (b : Body) (keep : Bool) (rest : List Entry) : State :=
  { s with journal := { s.journal.appended b keep with queue := rest, failures := 0 } }

theorem State.recorded_queue (b : Body) (keep : Bool) (rest : List Entry) (x : Port) :
    (s.recorded b keep rest).queue x = s.queue x := by cases x <;> rfl

/-- The state with the write wait of slot `i` gone and its operations at the end of the resumed list (R55). -/
def State.waitEnded (u : State) (i : Fin 24) (resumed : List Resumed) : State :=
  { u.setSlot i { u.slot i with wait := none } with arbiter := { u.arbiter with resumed := u.arbiter.resumed ++ resumed } }

section
variable {w : WriteWait} (wait : (s.slot i).wait = some w)
include wait

theorem keeps_of_wait (b : Body) : s.keeps ⟨.append b, .engine i⟩ = s.holdsCellOf i w.record := by
  obtain ⟨record, owner, waiters⟩ := w
  cases record <;> simp [State.keeps, wait, State.holdsCellOf]

theorem endWait_of_wait : s.endWait i = (s.takeRecord i w.record).waitEnded i w.resumed := by
  simp only [State.endWait, wait, State.setSlot_arbiter, State.waitEnded]

/-- With the engine busy and no write waiting for a place, the completion of the record of a write wait ends the wait and makes no
grant (R55, R144). -/
theorem execWriteComplete_of_wait {b : Body} {rest : List Entry} (busy : s.engine.isSome = true)
    (copy : s.journal.toCopy = none) (place : s.journal.place = [])
    (queue : s.journal.queue = ⟨.append b, .engine i⟩ :: rest) :
    exec .writeComplete s = .next ((s.recorded b (s.holdsCellOf i w.record) rest).endWait i) := by
  have completes := execWriteComplete_of_place_nil queue (by simp [State.copyDue, copy]) place
  have acts : State.requesterActs { s with journal := { s.storeEffect ⟨.append b, .engine i⟩ with queue := rest, failures := 0 } }
      ⟨.append b, .engine i⟩ = (s.recorded b (s.holdsCellOf i w.record) rest).endWait i := by
    rw [← keeps_of_wait wait b]
    rfl
  rw [completes, acts, settle_of_engine]
  rw [endWait_of_wait (s := s.recorded b _ rest) wait]
  obtain ⟨engine, -⟩ := (takeRecord_sameBesides (s.recorded b (s.holdsCellOf i w.record) rest) i w.record).frame
  exact (congrArg Option.isSome engine).trans busy

end

end

/-- Settles O50: the wait ends by `execWriteComplete_of_wait`, the record stands by `Journal.appended_stands`, and each clause says by
`State.takeRecord` what the cell takes. -/
theorem waitRecordCompletes : Obligations.WaitRecordCompletes := by
  intro s i rest owner waiters v b busy copy place queue stands
  have ends {r : WaitRecord} (wait : (s.slot i).wait = some ⟨r, owner, waiters⟩) {keep : Bool} (keeps : s.holdsCellOf i r = keep)
      {u : State} (took : (s.recorded b keep rest).takeRecord i r = u) {c : Slot} (slot : u.slot i = c)
      {accepted : Option (Position × Nat)}
      (resumed : WriteWait.resumed ⟨r, owner, waiters⟩ = ⟨owner, accepted⟩ :: waiters.map fun w => ⟨w, none⟩) :
      ∃ t, stands keep t c accepted ∧ ∀ x, t.queue x = u.queue x := by
    have completes := execWriteComplete_of_wait wait busy copy place queue
    rw [keeps, endWait_of_wait (s := s.recorded b _ rest) wait, took, resumed] at completes
    have same := took ▸ takeRecord_sameBesides (s.recorded b keep rest) i r
    obtain ⟨engine, journal, arbiter, portM, portL, renewal, commit, time, supply⟩ := same.frame
    refine ⟨_, ⟨completes, ?_, (congrArg Journal.banks journal :), (congrArg Journal.queue journal :), engine, renewal, commit,
      time, supply, portM, portL, fun j other => ?_, slot ▸ State.slot_setSlot _ i _, ?_⟩, fun x => by cases x <;> rfl⟩
    · exact (congrArg (s.journal.AppendStands keep b) journal).mpr (s.journal.appended_stands keep b)
    · exact (State.slot_setSlot_ne _ (Ne.symm other) _).trans (same.slot_ne other)
    · rw [State.waitEnded, arbiter]
      rfl
  refine ⟨?_, ?_, ?_⟩
  · rintro k n c l current rfl counters wait
    obtain ⟨t, stood, same⟩ := ends wait rfl (takeRecord_ceiling (s := s.recorded ..) current counters v) (State.slot_setSlot ..) rfl
    exact ⟨t, stood, same .M, same .L⟩
  · rintro k f q current rfl counters wait low full
    have held : s.holdsCellOf i (.floor k.generation v .current) = true := by simp [State.holdsCellOf, State.holdsCell, current]
    have due : low = counterLowDue (s.slot i).policy { k with counters := .floor v v } := by
      dsimp only [low]
      cases (s.slot i).policy <;> rfl
    rw [due]
    obtain ⟨t, stood, same⟩ := ends wait held rfl (takeRecord_current_slot (s := s.recorded ..) current v) rfl
    refine ⟨t, stood, fun x => ?_⟩
    rw [same, takeRecord_current_queue (s := s.recorded ..) current, State.recorded_queue]
    rfl
  · rintro g rfl wait
    refine ⟨?_, fun gone => ?_⟩
    · rintro o prior rfl
      have held : s.holdsCellOf i (.floor o.generation v .prior) = true := by simp [State.holdsCellOf, State.holdsCell, prior]
      obtain ⟨t, stood, same⟩ := ends wait held (takeRecord_prior (s := s.recorded ..) prior v) (State.slot_setSlot ..) rfl
      exact ⟨t, stood, same .M, same .L⟩
    · obtain ⟨t, stood, same⟩ := ends wait (holdsCell_prior_gone gone) (takeRecord_prior_gone (s := s.recorded ..) gone v) rfl rfl
      exact ⟨t, stood, same .M, same .L⟩

end Sys2Proof.Machine
end

section
/-! PROOFS. No requester writes the store (R137, R144): what the requesters do at the completion of a write, and the grants that follow, hand
further writes over to the controller and leave the nonvolatile store as it is. -/

namespace Sys2Proof.Machine

/-- The nonvolatile store: the ring and the banks (R137). -/
def Journal.nonvolatile (j : Journal) : List (Nat × RingCell) × List (Nat × BankCell) := (j.ring, j.banks)

section
variable (s : State)

/-- A walk over a list keeps the store where each step does. -/
theorem foldl_nonvolatile {α : Type} {f : State → α → State}
    (kept : ∀ s a, (f s a).journal.nonvolatile = s.journal.nonvolatile) (l : List α) :
    (l.foldl f s).journal.nonvolatile = s.journal.nonvolatile := by
  induction l generalizing s with
  | nil => rfl
  | cons a rest ih => exact (ih _).trans (kept s a)

theorem State.SameBesides.nonvolatile {s u : State} {i : Fin 24} (same : s.SameBesides i u) :
    u.journal.nonvolatile = s.journal.nonvolatile := by
  obtain ⟨-, journal, -⟩ := same.frame
  exact congrArg Journal.nonvolatile journal

@[simp] theorem State.handOver_nonvolatile (w : Write) (r : Requester) : (s.handOver w r).journal.nonvolatile = s.journal.nonvolatile := by
  unfold State.handOver; split <;> rfl

@[simp] theorem mapSlots_journal (f : Fin 24 → Slot → Slot) : (s.mapSlots f).journal = s.journal := by
  obtain ⟨_, -, e⟩ := mapSlots_eq s f
  rw [e]

@[simp] theorem evaluateLow_nonvolatile (i : Fin 24) : (s.evaluateLow i).journal.nonvolatile = s.journal.nonvolatile :=
  (s.evaluateLow_sameBesides i).nonvolatile

@[simp] theorem evaluateSpent_nonvolatile (i : Fin 24) : (s.evaluateSpent i).journal.nonvolatile = s.journal.nonvolatile :=
  (s.evaluateSpent_sameBesides i).nonvolatile

/-! ## Deadlines and ticks -/

@[simp] theorem lifeWarning_nonvolatile (i : Fin 24) : (s.lifeWarning i).journal.nonvolatile = s.journal.nonvolatile :=
  congrArg Journal.nonvolatile (lifeWarning_kept s i).journal

@[simp] theorem expire_nonvolatile (i : Fin 24) : (s.expire i).journal.nonvolatile = s.journal.nonvolatile :=
  congrArg Journal.nonvolatile (expire_kept s i).journal

@[simp] theorem endGrace_nonvolatile (i : Fin 24) : (s.endGrace i).journal.nonvolatile = s.journal.nonvolatile :=
  congrArg Journal.nonvolatile (endGrace_kept s i).journal

@[simp] theorem scheduledActivation_nonvolatile : s.scheduledActivation.journal.nonvolatile = s.journal.nonvolatile :=
  congrArg Journal.nonvolatile (scheduledActivation_kept s).journal

@[simp] theorem deadlines_nonvolatile : s.deadlines.journal.nonvolatile = s.journal.nonvolatile :=
  congrArg Journal.nonvolatile (deadlines_kept s).journal

@[simp] theorem checkpointTest_nonvolatile : s.checkpointTest.journal.nonvolatile = s.journal.nonvolatile := by
  obtain ⟨ring, banks⟩ := checkpointTest_store s
  exact Prod.ext ring banks

@[simp] theorem timeWritten_nonvolatile : s.timeWritten.journal.nonvolatile = s.journal.nonvolatile := by
  unfold State.timeWritten State.advanceT
  by_cases deferred : s.time.deferred = true <;> simp [deferred]

/-! ## Checking -/

@[simp] theorem refuseBatch_nonvolatile (e : BatchReason) : (s.refuseBatch e).journal.nonvolatile = s.journal.nonvolatile := by
  obtain ⟨_, -, same⟩ := refuseBatch_eq s e
  rw [same]
  rfl

@[simp] theorem handArm_nonvolatile : s.handArm.journal.nonvolatile = s.journal.nonvolatile := by simp [State.handArm]

@[simp] theorem handSteps_nonvolatile (steps : List AppliedStep) :
    (State.handSteps steps s).journal.nonvolatile = s.journal.nonvolatile := by
  induction steps generalizing s with
  | nil => rfl
  | cons a rest ih =>
    unfold State.handSteps
    cases s.handing <;> simp [ih]

@[simp] theorem tryImages_nonvolatile : s.tryImages.journal.nonvolatile = s.journal.nonvolatile := by
  unfold State.tryImages State.beginRecords
  split
  · dsimp only
    split <;> simp
  · rfl

theorem takeSteps_nonvolatile (steps : List StepRecord) (n : Nat) :
    (State.takeSteps steps n s).journal.nonvolatile = s.journal.nonvolatile := by
  induction steps generalizing s n with
  | nil => simp [State.takeSteps]
  | cons r rest ih =>
    unfold State.takeSteps
    split
    · split
      · simp
      · simp [ih]
    · split
      · simp
      · simp [ih]

@[simp] theorem stepsFrom_nonvolatile (n : Nat) : (s.stepsFrom n).journal.nonvolatile = s.journal.nonvolatile := takeSteps_nonvolatile s _ n

@[simp] theorem beginSteps_nonvolatile : s.beginSteps.journal.nonvolatile = s.journal.nonvolatile := by simp [State.beginSteps]

@[simp] theorem takeSequence_nonvolatile (g v : Nat) : (s.takeSequence g v).journal.nonvolatile = s.journal.nonvolatile := by
  unfold State.takeSequence
  split
  · split <;> simp
  · rfl

@[simp] theorem imageWritten_nonvolatile (i : Fin 24) : (s.imageWritten i).journal.nonvolatile = s.journal.nonvolatile := by
  simp [State.imageWritten]

@[simp] theorem armed_nonvolatile : s.armed.journal.nonvolatile = s.journal.nonvolatile := by
  unfold State.armed State.beginDisarm
  dsimp only
  split <;> simp

@[simp] theorem disarmed_nonvolatile : s.disarmed.journal.nonvolatile = s.journal.nonvolatile := by
  unfold State.disarmed State.dropNexts
  dsimp only
  split <;> simp

@[simp] theorem checkingPlaced_nonvolatile (r : Requester) : (s.checkingPlaced r).journal.nonvolatile = s.journal.nonvolatile := by
  unfold State.checkingPlaced
  split
  · split <;> simp
  · split <;> simp
  · rfl

/-! ## The end of start-up and the RETIRED erase -/

@[simp] theorem eraseOn_nonvolatile (n : Nat) : (State.eraseOn n s).journal.nonvolatile = s.journal.nonvolatile := by
  induction n generalizing s with
  | zero => rfl
  | succ n ih =>
    unfold State.eraseOn
    split
    · split
      · simp [ih]
      · split <;> simp
    · rfl
    · rfl

@[simp] theorem eraseGo_nonvolatile : s.eraseGo.journal.nonvolatile = s.journal.nonvolatile := eraseOn_nonvolatile s 97

@[simp] theorem eraseDone_nonvolatile : s.eraseDone.journal.nonvolatile = s.journal.nonvolatile := by
  unfold State.eraseDone
  split
  · dsimp only
    split <;> simp
  · rfl
  · rfl

theorem slotConditions_nonvolatile (i : Fin 24) : (s.slotConditions i).journal.nonvolatile = s.journal.nonvolatile := by
  unfold State.slotConditions
  dsimp only
  split
  · split <;> simp
  · simp

@[simp] theorem conditions_nonvolatile : s.conditions.journal.nonvolatile = s.journal.nonvolatile := by
  unfold State.conditions
  dsimp only
  split
  · simp
  · split <;> simp [foldl_nonvolatile _ slotConditions_nonvolatile]

@[simp] theorem endStartup_nonvolatile : s.endStartup.journal.nonvolatile = s.journal.nonvolatile := by
  unfold State.endStartup
  dsimp only
  split <;> simp

@[simp] theorem finish_nonvolatile : s.finish.journal.nonvolatile = s.journal.nonvolatile := by simp [State.finish]

@[simp] theorem retirement_nonvolatile : s.retirement.journal.nonvolatile = s.journal.nonvolatile := by
  unfold State.retirement
  split
  · dsimp only
    split <;> simp
  · simp

/-! ## The commit -/

@[simp] theorem handEnd_nonvolatile : s.handEnd.journal.nonvolatile = s.journal.nonvolatile := by simp [State.handEnd]

@[simp] theorem handRecords_nonvolatile (bodies : List Body) :
    (State.handRecords bodies s).journal.nonvolatile = s.journal.nonvolatile := by
  induction bodies generalizing s with
  | nil => rfl
  | cons b rest ih =>
    unfold State.handRecords
    cases s.handing <;> simp [ih, State.setRest]

@[simp] theorem computeCommit_nonvolatile : s.computeCommit.journal.nonvolatile = s.journal.nonvolatile := by
  unfold State.computeCommit
  split
  · dsimp only
    split <;> simp
  · rfl

@[simp] theorem commitPlaced_nonvolatile : s.commitPlaced.journal.nonvolatile = s.journal.nonvolatile := by
  unfold State.commitPlaced
  split
  · split <;> simp
  · rfl

@[simp] theorem takeAll_nonvolatile (cs : List NewSlot) : (s.takeAll cs).journal.nonvolatile = s.journal.nonvolatile :=
  foldl_nonvolatile s (f := State.takeContents) (fun _ _ => rfl) cs

@[simp] theorem takeLifecycle_nonvolatile (change : Option (LifeCycle × Option Nat)) :
    (s.takeLifecycle change).journal.nonvolatile = s.journal.nonvolatile := by
  cases change <;> rfl

theorem endSlot_nonvolatile (c : NewSlot) : (s.endSlot c).journal.nonvolatile = s.journal.nonvolatile := by
  have spent (t : State) : (t.raiseInstalledSpent c).journal = t.journal := by
    unfold State.raiseInstalledSpent
    split
    · split
      · split <;> simp
      · rfl
    · rfl
  simp [State.endSlot, spent]

theorem endSlotQuiet_nonvolatile (c : NewSlot) :
    (s.endSlotQuiet c).journal.nonvolatile = s.journal.nonvolatile := by simp [State.endSlotQuiet]

@[simp] theorem commitEnded_nonvolatile (c : Commit) : (s.commitEnded c).journal.nonvolatile = s.journal.nonvolatile := by
  unfold State.commitEnded State.dropPins
  dsimp only
  split
  · simp [foldl_nonvolatile _ endSlotQuiet_nonvolatile]
  · simp [foldl_nonvolatile _ endSlot_nonvolatile]

@[simp] theorem rolledForward_nonvolatile (c : Commit) : (s.rolledForward c).journal.nonvolatile = s.journal.nonvolatile := by
  simp [State.rolledForward]

/-! ## The requesters -/

@[simp] theorem endWait_nonvolatile (i : Fin 24) : (s.endWait i).journal.nonvolatile = s.journal.nonvolatile := by
  unfold State.endWait
  split
  · exact (takeRecord_sameBesides s i _).nonvolatile
  · rfl

@[simp] theorem requesterActs_nonvolatile (e : Entry) : (s.requesterActs e).journal.nonvolatile = s.journal.nonvolatile := by
  obtain ⟨w, r⟩ := e
  cases r <;> dsimp only [State.requesterActs]
  case checkFloor attached =>
    split
    · split <;> simp
    · rfl
  case commitEnd =>
    split
    · split <;> simp
    · rfl
  case checkBank | checkStep | commitRecord | erase => split <;> simp
  all_goals simp

@[simp] theorem placedActs_nonvolatile (e : Entry) : (s.placedActs e).journal.nonvolatile = s.journal.nonvolatile := by
  unfold State.placedActs
  split <;> simp

theorem completeEntry_nonvolatile (e : Entry) (rest : List Entry) :
    (s.completeEntry e rest).journal.nonvolatile = (s.storeEffect e).nonvolatile := by
  unfold State.completeEntry
  dsimp only
  split
  · rw [placedActs_nonvolatile, requesterActs_nonvolatile]
    rfl
  · rw [requesterActs_nonvolatile]
    rfl

end

/-! ## The grants -/

section
variable (s : State) (p : Port) (i : Fin 24)

@[simp] theorem beginWait_nonvolatile (r : WaitRecord) : (s.beginWait i p r).journal.nonvolatile = s.journal.nonvolatile := by
  unfold State.beginWait
  split <;> simp

@[simp] theorem issueStep_nonvolatile (c : Current) : (s.issueStep p i c).journal.nonvolatile = s.journal.nonvolatile := by
  unfold State.issueStep
  split
  · split <;> simp
  · rfl

@[simp] theorem enterMakeTag_nonvolatile (slot : Nat) (expected : Option Nat) :
    (s.enterMakeTag p slot expected).journal.nonvolatile = s.journal.nonvolatile := by
  unfold State.enterMakeTag
  split
  · simp
  · split
    · rfl
    · simp

@[simp] theorem enterCheckTag_nonvolatile (slot generation counter : Nat) (tag : Tag) :
    (s.enterCheckTag p slot generation counter tag).journal.nonvolatile = s.journal.nonvolatile := by
  unfold State.enterCheckTag
  split
  · simp
  · split
    · rfl
    · split
      · simp
      · split <;> simp

@[simp] theorem enterPin_nonvolatile (slot : Nat) : (s.enterPin p slot).journal.nonvolatile = s.journal.nonvolatile := by
  unfold State.enterPin
  split
  · simp
  · split <;> simp

@[simp] theorem enterUnpin_nonvolatile (slot : Nat) : (s.enterUnpin p slot).journal.nonvolatile = s.journal.nonvolatile := by
  unfold State.enterUnpin
  split <;> simp

@[simp] theorem enter_nonvolatile : (s.enter p).journal.nonvolatile = s.journal.nonvolatile := by
  unfold State.enter
  split <;> simp

/-- What a grant of the arbiter can be (R64): of a resumed operation, of the table hold, of the checking request, or of a port. -/
theorem grant_cases {s t : State} (granted : s.grant = some t) :
    (∃ r rest, t = State.grantResumed { s with arbiter := { s.arbiter with resumed := rest } } r) ∨ t = s.grantHold ∨
    (∃ c, t = s.grantChecking c) ∨ ∃ p, t = s.grantPort p := by
  unfold State.grant at granted
  split at granted
  · cases granted
  split at granted
  next r rest _ =>
    cases granted
    exact .inl ⟨r, rest, rfl⟩
  split at granted
  · cases granted
    exact .inr (.inl rfl)
  split at granted
  next c _ _ =>
    cases granted
    exact .inr (.inr (.inl ⟨c, rfl⟩))
  split at granted
  next p _ _ =>
    cases granted
    exact .inr (.inr (.inr ⟨p, rfl⟩))
  split at granted
  next c _ =>
    cases granted
    exact .inr (.inr (.inl ⟨c, rfl⟩))
  · cases granted

theorem grant_nonvolatile {s t : State} (granted : s.grant = some t) : t.journal.nonvolatile = s.journal.nonvolatile := by
  obtain ⟨r, rest, rfl⟩ | rfl | ⟨c, rfl⟩ | ⟨p, rfl⟩ := grant_cases granted
  · unfold State.grantResumed
    split <;> simp
  · simp [State.grantHold]
  · rfl
  · simp [State.grantPort]

theorem grants_nonvolatile (n : Nat) : (State.grants n s).journal.nonvolatile = s.journal.nonvolatile := by
  induction n generalizing s with
  | zero => rfl
  | succ n ih =>
    rw [State.grants]
    split
    next granted => rw [ih, grant_nonvolatile granted]
    next => rfl

theorem settle_nonvolatile :
    s.settle.journal.nonvolatile = s.journal.nonvolatile := by rw [State.settle, State.drain_journal, grants_nonvolatile]

end

end Sys2Proof.Machine
end

section
/-! PROOFS. A first write failure (chapter 7): what it leaves of the journal, and the later success of a bank write that failed. -/

namespace Sys2Proof.Machine

/-! ## The completion of a bank write (R140, R144) -/

theorem validImage_congr {j j' : Journal} (banks : j'.banks = j.banks) (i : Fin 24) (k : Fin 3) (g : Nat) :
    j'.validImage i k g = j.validImage i k g := by rw [Journal.validImage, Journal.validImage, Journal.bank, Journal.bank, banks]

/-- A bank write that completes leaves a valid image in its bank, whatever goes on at that event. -/
theorem execWriteComplete_validImage {s : State} {i : Fin 24} {k : Fin 3} {g : Nat} {key : Key} {r : Requester} {rest : List Entry}
    (queue : s.journal.queue = ⟨.bankWrite i k g key, r⟩ :: rest) :
    ∃ t : State, exec .writeComplete s = .next t ∧ t.journal.validImage i k g = true := by
  have completes : exec .writeComplete s = .next (s.completeEntry ⟨.bankWrite i k g key, r⟩ rest).settle := by
    change execWriteComplete s = _
    rw [execWriteComplete, queue]
    rfl
  have store := (settle_nonvolatile _).trans (completeEntry_nonvolatile s ⟨.bankWrite i k g key, r⟩ rest)
  exact ⟨_, completes, (validImage_congr (congrArg Prod.snd store) i k g).trans (s.journal.validImage_writeBank i k g key).1⟩

/-! ## The write position after a failure (R148) -/

theorem nextPosition_mod (q : Nat) : nextPosition (q % 512) = (q + 1) % 512 := by
  unfold nextPosition
  split <;> omega

section
variable (j : Journal)

/-- The walk over live records changes the write position and the lap count alone. -/
theorem stepOver_eq (n : Nat) : ∃ p lap, j.stepOver n = { j with writePosition := p, lap := lap } := by
  induction n generalizing j with
  | zero => exact ⟨_, _, rfl⟩
  | succ n ih =>
    unfold Journal.stepOver
    split
    · obtain ⟨p, lap, e⟩ := ih j.advance
      exact ⟨p, lap, e⟩
    · exact ⟨_, _, rfl⟩

/-- The walk ends at the first position on its way that holds no live record, where it can come so far. -/
theorem stepOver_position {n q k : Nat} (start : j.writePosition = q % 512) (free : j.isLive ((q + k) % 512) = false) (near : k < n) :
    ∃ m ≤ k, (j.stepOver n).writePosition = (q + m) % 512 ∧ j.isLive ((q + m) % 512) = false ∧
      ∀ i < m, j.isLive ((q + i) % 512) = true := by
  induction n generalizing j q k with
  | zero => omega
  | succ n ih =>
    unfold Journal.stepOver
    by_cases live : j.isLive j.writePosition = true
    · rw [if_pos live]
      rw [start] at live
      cases k with
      | zero => exact absurd (free.symm.trans live) Bool.false_ne_true
      | succ k =>
        have next : j.advance.writePosition = (q + 1) % 512 := by rw [← nextPosition_mod, ← start]; rfl
        obtain ⟨m, le, position, ends, passed⟩ := ih j.advance next (by rw [Nat.add_right_comm]; exact free) (by omega)
        rw [Nat.add_right_comm] at position ends
        refine ⟨m + 1, by omega, position, ends, fun i before => ?_⟩
        cases i with
        | zero => exact live
        | succ i =>
          have occupied := passed i (by omega)
          rw [Nat.add_right_comm] at occupied
          exact occupied
    · rw [if_neg live]
      rw [start, Bool.not_eq_true] at live
      exact ⟨0, Nat.zero_le k, start, live, nofun⟩

/-- A failed append spoils its position, and moves the write position and the lap count (R148). -/
theorem appendFailed_eq : ∃ p lap, j.appendFailed = { j.spoil with writePosition := p, lap := lap } := by
  unfold Journal.appendFailed
  split
  · exact ⟨_, _, rfl⟩
  · obtain ⟨p, lap, e⟩ := stepOver_eq j.spoil.advance.advance 512
    exact ⟨p, lap, e⟩

theorem appendFailed_position (record : j.toCopy = none) : j.appendFailed.writePosition = nextPosition j.writePosition := by
  rw [Journal.appendFailed, record]
  rfl

/-- A failed copy moves the write position past its original, and past each live record after it (R148). -/
theorem appendFailed_position_of_copy (copy : j.toCopy.isSome = true) (bound : j.writePosition < 512)
    (free : ∃ a < 512, j.isLive a = false) :
    ∃ n < 512, j.appendFailed.writePosition = (j.writePosition + 2 + n) % 512 ∧ j.isLive j.appendFailed.writePosition = false ∧
      ∀ m < n, j.isLive ((j.writePosition + 2 + m) % 512) = true := by
  obtain ⟨r, copy⟩ := Option.isSome_iff_exists.mp copy
  obtain ⟨a, below, free⟩ := free
  have past : j.spoil.advance.advance.writePosition = (j.writePosition + 2) % 512 := by
    rw [← nextPosition_mod, ← nextPosition_mod, Nat.mod_eq_of_lt bound]
    rfl
  have reach : (j.writePosition + 2 + (a + 1022 - j.writePosition) % 512) % 512 = a := by omega
  obtain ⟨n, le, position, ends, passed⟩ := stepOver_position j.spoil.advance.advance (n := 512)
    (k := (a + 1022 - j.writePosition) % 512) past (by rw [reach]; exact free) (Nat.mod_lt _ (by decide))
  have failed : j.appendFailed = j.spoil.advance.advance.stepOver 512 := by rw [Journal.appendFailed, copy]
  rw [failed, position]
  exact ⟨n, by omega, rfl, ends, passed⟩

/-- The first failure leaves the queue, the place list and the live map (R148, R149). -/
theorem firstFailure_controller (w : Write) :
    (j.firstFailure w).queue = j.queue ∧ (j.firstFailure w).place = j.place ∧ (j.firstFailure w).live = j.live := by
  cases w with
  | append b =>
    obtain ⟨p, lap, e⟩ := appendFailed_eq j
    rw [Journal.firstFailure, e]
    exact ⟨rfl, rfl, rfl⟩
  | bankWrite i k g key => exact ⟨rfl, rfl, rfl⟩
  | bankErase i k => exact ⟨rfl, rfl, rfl⟩

end

/-- Settles O54: a failed record or copy is `appendFailed_eq` with the two lemmas of its position, a failed bank is spoiled, and its write
succeeds later by `execWriteComplete_validImage`. -/
theorem firstFailureRetries : Obligations.FirstFailureRetries := by
  intro s w r rest queue first
  have fails : exec .writeFailure s = .next { s with journal := { s.journal.firstFailure w with failures := 1 } } := by
    change execWriteFailure s = _
    rw [execWriteFailure, queue]
    exact if_pos first
  obtain ⟨queued, placed, live⟩ := firstFailure_controller s.journal w
  refine ⟨_, fails, rfl, queued, placed, live, ?_, ?_, ?_⟩
  · rintro b rfl
    obtain ⟨p, lap, e⟩ := appendFailed_eq s.journal
    refine ⟨?_, ?_, fun k other => ?_, appendFailed_position s.journal, fun copy bound free => ?_⟩
    · rw [Journal.firstFailure, e]
      rfl
    · rw [Journal.firstFailure, e]
      exact cellGet_cellSet_same ..
    · rw [Journal.firstFailure, e]
      exact cellGet_cellSet_ne other ..
    · exact appendFailed_position_of_copy s.journal copy bound free
  · rintro i k g key rfl
    exact ⟨rfl, rfl, s.journal.validImage_spoilBank i k, execWriteComplete_validImage queue⟩
  · rintro i k rfl
    refine ⟨rfl, rfl, ?_⟩
    rw [Journal.bank]
    exact Option.isSome_iff_exists.mpr ⟨_, cellGet_cellSet_same ..⟩

end Sys2Proof.Machine
end

section
/-! PROOFS. The supply (chapter 8): what the abort leaves of the part and of its store, the run state through the grants that end an event, and
the assertion of PFWN. -/

namespace Sys2Proof.Machine

/-! ## The abort (R151, R168) -/

section
variable (s : State) (cut : Cut) (pins : Supply)

theorem abort_cleared : (s.abort cut pins).Cleared s :=
  ⟨rfl, fun i => Vector.getElem_replicate i.isLt, rfl, rfl, rfl, rfl, rfl, rfl, rfl, rfl, rfl, rfl, rfl, rfl, rfl, rfl, rfl, rfl, rfl, rfl,
    rfl⟩

/-- An append that is left whole writes the record that stood at the front: the copy that the append waits for, or the record itself
(R146, R151). -/
theorem cut_append_whole {j : Journal} {b : Body} {r : Requester} {rest : List Entry} (queue : j.queue = ⟨.append b, r⟩ :: rest) :
    j.cut .whole = j.put (match j.toCopy with | some r => r.body | none => b) := by
  rw [Journal.cut, queue]
  cases j.toCopy <;> rfl

/-- The store after an abort is that of `Journal.cut`: one case for each kind of write in service and each way of leaving it. -/
theorem abort_storeCut : StoreCut s (s.abort cut pins) cut := by
  have ring : (s.abort cut pins).journal.ring = (s.journal.cut cut).ring := rfl
  have banks : (s.abort cut pins).journal.banks = (s.journal.cut cut).banks := rfl
  unfold StoreCut
  rw [ring, banks]
  rcases queue : s.journal.queue with _ | ⟨⟨w, r⟩, rest⟩
  case nil => simp [Journal.cut, queue]
  case cons =>
    cases cut with
    | notBegun => cases w <;> simp [Journal.cut, queue]
    | whole =>
      cases w with
      | append b =>
        rw [cut_append_whole queue]
        exact ⟨rfl, cellGet_cellSet_same .., fun k other => cellGet_cellSet_ne other ..⟩
      | bankWrite i k g key => simp [Journal.cut, queue, Journal.writeBank]
      | bankErase i k => simp [Journal.cut, queue, Journal.eraseBank]
    | torn =>
      cases w with
      | append b =>
        have torn : s.journal.cut .torn = s.journal.spoil := by rw [Journal.cut, queue]
        rw [torn]
        exact ⟨rfl, cellGet_cellSet_same .., fun k other => cellGet_cellSet_ne other ..⟩
      | bankWrite i k g key => simp [Journal.cut, queue, Journal.spoilBank]
      | bankErase i k => simp [Journal.cut, queue, Journal.spoilBank]

end

/-- Settles O5: both events are `State.abort` where their pin changes, which clears the part by `abort_cleared` and leaves the store by
`abort_storeCut`. -/
theorem abortClearsThePart : Obligations.AbortClearsThePart := by
  intro cut s
  refine ⟨fun high => ?_, fun low => if_pos low, fun inRange => ?_, fun lost => ?_⟩
  · have aborts : exec (.rstnLow cut) s = .next (s.abort cut { s.supply with rstnLow := true }) := if_neg (by simp [high])
    exact ⟨_, aborts, abort_cleared .., abort_storeCut .., rfl, rfl, rfl⟩
  · exact ⟨_, if_pos inRange, abort_cleared .., abort_storeCut .., rfl, rfl, rfl⟩
  · exact if_neg (by simp [lost])

/-! ## What the grants leave alone (R64) -/

/-- A reading of the state that the updates which make up the grants do not change: those of a slot, a port, the demand queues, the key
engine, the arbiter, the renewal engine with its commit, and the hand-over of a write. -/
structure OutsideGrants {α : Type} (f : State → α) : Prop where
  setSlot : ∀ s i c, f (s.setSlot i c) = f s
  setPort : ∀ s p r, f (s.setPort p r) = f s
  queues : ∀ (s : State) m l, f { s with queueM := m, queueL := l } = f s
  control : ∀ (s : State) e a r c, f { s with engine := e, arbiter := a, renewal := r, commit := c } = f s
  handOver : ∀ s w r, f (s.handOver w r) = f s

/-- The supply monitor and its pins are outside the grants. -/
theorem supply_outsideGrants : OutsideGrants State.supply where
  setSlot _ _ _ := rfl
  setPort := State.setPort_supply
  queues _ _ _ := rfl
  control _ _ _ _ _ := rfl
  handOver := State.handOver_supply

namespace OutsideGrants

variable {α : Type} {f : State → α} (out : OutsideGrants f) (s : State) (p : Port) (i : Fin 24)
include out

theorem sameBesides {s u : State} {i : Fin 24} (same : s.SameBesides i u) : f u = f s := by
  obtain ⟨c, m, l, rfl⟩ := same
  exact (out.queues _ m l).trans (out.setSlot s i c)

theorem complete (st : Status) (b : List Byte) : f (s.complete p st b) = f s := out.setPort s p _

theorem refuse (st : Status) : f (s.refuse p st) = f s := out.complete s p st []

theorem commitStart : f s.commitStart = f s := by
  unfold State.commitStart
  split
  · exact out.control s _ _ _ _
  · rfl

theorem beginWait (r : WaitRecord) : f (s.beginWait i p r) = f s := by
  unfold State.beginWait
  split
  · exact out.refuse s p _
  · exact (out.handOver _ _ _).trans (out.setSlot s i _)

theorem issueStep (c : Current) : f (s.issueStep p i c) = f s := by
  unfold State.issueStep
  split
  · split
    · refine (out.control _ _ _ _ _).trans (out.sameBesides (i := i) ?_)
      exact ((State.SameBesides.setSlot s i _).trans (State.evaluateLow_sameBesides _ i)).trans (State.evaluateSpent_sameBesides _ i)
    · exact out.beginWait s p i _
  · rfl

theorem enterMakeTag (slot : Nat) (expected : Option Nat) : f (s.enterMakeTag p slot expected) = f s := by
  unfold State.enterMakeTag
  split
  · exact out.refuse s p _
  · split
    · exact out.setSlot s _ _
    · exact out.issueStep s p _ _

theorem enterCheckTag (slot generation counter : Nat) (tag : Tag) : f (s.enterCheckTag p slot generation counter tag) = f s := by
  unfold State.enterCheckTag
  split
  · exact out.refuse s p _
  · split
    · exact out.setSlot s _ _
    · split
      · exact out.refuse s p _
      · split
        · exact out.refuse s p _
        · exact out.control s _ _ _ _

theorem enterPin (slot : Nat) : f (s.enterPin p slot) = f s := by
  unfold State.enterPin
  split
  · exact out.refuse s p _
  · split
    · exact out.complete s p _ _
    · exact (out.complete _ p _ _).trans (out.setSlot s _ _)

theorem enterUnpin (slot : Nat) : f (s.enterUnpin p slot) = f s := by
  unfold State.enterUnpin
  split
  · exact out.refuse s p _
  · exact (out.commitStart _).trans ((out.complete _ p _ _).trans (out.setSlot s _ _))

theorem enter : f (s.enter p) = f s := by
  unfold State.enter
  split
  · exact out.enterMakeTag s p _ _
  · exact out.enterCheckTag s p _ _ _ _
  · exact out.enterPin s p _
  · exact out.enterUnpin s p _
  · rfl
  · rfl

theorem grantResumed (r : Resumed) : f (s.grantResumed r) = f s := by
  unfold State.grantResumed
  split
  · exact out.complete s _ _ _
  · exact out.enter s _

theorem grant {s t : State} (granted : s.grant = some t) : f t = f s := by
  obtain ⟨r, rest, rfl⟩ | rfl | ⟨c, rfl⟩ | ⟨p, rfl⟩ := grant_cases granted
  · exact (out.grantResumed _ r).trans (out.control s _ _ _ _)
  · exact (out.handOver _ _ _).trans (out.control s _ _ _ _)
  · exact out.control s _ _ _ _
  · exact (out.enter _ p).trans (out.control s _ _ _ _)

theorem grants (n : Nat) : f (State.grants n s) = f s := by
  induction n generalizing s with
  | zero => rfl
  | succ n ih =>
    rw [State.grants]
    split
    next granted => rw [ih, out.grant granted]
    next => rfl

end OutsideGrants

/-! ## The drain condition (R164) -/

section
variable (s : State)

theorem drained_iff : s.drained = true ↔
    s.arbiter.waitM = false ∧ s.arbiter.waitL = false ∧ s.inCharge .M = false ∧ s.inCharge .L = false ∧ s.engine = none ∧
      s.renewal.state ≠ .checking ∧ s.renewal.state ≠ .committing ∧ s.renewal.disarm = false ∧ s.journal.queue = [] ∧
      s.journal.place = [] ∧ s.time.checkpoint = none := by
  simp [State.drained, and_assoc]

/-- The drain condition does not look at the run state, so it still holds once the drain has ended. -/
@[simp] theorem drain_drained : s.drain.drained = s.drained := by unfold State.drain; split <;> rfl

theorem drain_supply_of_flush (flush : s.supply.run = .flush) :
    s.drain.supply = { s.supply with run := if s.drained = true then .quiescent else .flush } := by
  unfold State.drain
  by_cases drained : s.drained = true
  · rw [if_pos ⟨flush, drained⟩, if_pos drained]
  · rw [if_neg fun both => drained both.2, if_neg drained, ← flush]

/-- At the end of an event in FLUSH the run state is QUIESCENT where the part is drained, and stays FLUSH where it is not. -/
theorem settle_supply_of_flush (flush : s.supply.run = .flush) :
    s.settle.supply = { s.supply with run := if s.settle.drained = true then .quiescent else .flush } := by
  have granted := supply_outsideGrants.grants s (s.arbiter.resumed.length + 6)
  rw [State.settle, drain_drained, drain_supply_of_flush _ (by rw [granted, flush]), granted]

/-- An event that begins in FLUSH ends in FLUSH or QUIESCENT, and neither acknowledges an address (R162). -/
theorem settle_of_flush (flush : s.supply.run = .flush) :
    (s.settle.supply.run = .flush ∨ s.settle.supply.run = .quiescent) ∧ s.settle.acknowledges = false := by
  have run : s.settle.supply.run = .flush ∨ s.settle.supply.run = .quiescent := by
    rw [settle_supply_of_flush s flush]
    by_cases drained : s.settle.drained = true <;> simp [drained]
  refine ⟨run, ?_⟩
  rcases run with run | run <;> simp [State.acknowledges, run]

end

/-! ## The assertion of PFWN (R97, R163, R166) -/

/-- The part at the entry to FLUSH, before its event ends (R163). -/
def State.flushed (s : State) : State := ((s.setWarning true).setRun .flush).silencePorts.abandonBatch.withdrawHold

section
variable {s : State}

theorem execPfwnAssert_of_warning (held : s.supply.warning = true) : exec .pfwnAssert s = .next s := if_pos held

theorem execPfwnAssert_of_run (released : s.supply.warning = false) (run : s.supply.run = .run) :
    exec .pfwnAssert s = .next s.flushed.settle := by
  change execPfwnAssert s = _
  simp only [execPfwnAssert, released, run]
  rfl

theorem execPfwnAssert_of_fault (released : s.supply.warning = false) (run : s.supply.run = .fault) :
    exec .pfwnAssert s = .next (s.setWarning true).silencePorts := by
  change execPfwnAssert s = _
  simp [execPfwnAssert, released, run]

theorem execPfwnAssert_of_starting (released : s.supply.warning = false) (run : s.supply.run = .starting) :
    exec .pfwnAssert s = .next (s.setWarning true) := by
  change execPfwnAssert s = _
  simp [execPfwnAssert, released, run]

/-- With no batch before its ARM record, the entry to FLUSH changes the run state, the ports and a requested hold alone. -/
theorem flushed_of_not_beforeArm (settled : s.renewal.beforeArm = false) :
    s.flushed = ((s.setWarning true).setRun .flush).silencePorts.withdrawHold :=
  congrArg State.withdrawHold (if_neg (by simp [settled]))

/-- A batch before its ARM record is refused with POWER_WARNING at the entry to FLUSH. -/
theorem flushed_of_beforeArm (before : s.renewal.beforeArm = true) :
    s.flushed = (((s.setWarning true).setRun .flush).silencePorts.refuseBatch .powerWarning).withdrawHold :=
  congrArg State.withdrawHold (if_pos before)

/-- What the entry to FLUSH does in either case: run state and warning, the latches of open write frames, and a store left as it is. -/
theorem flushed_frame (s : State) :
    s.flushed.supply = { s.supply with run := .flush, warning := true } ∧ s.flushed.portM = s.portM.silenced ∧
      s.flushed.portL = s.portL.silenced ∧ s.flushed.time = s.time ∧ s.flushed.commit = s.commit ∧
      s.flushed.journal.ring = s.journal.ring ∧ s.flushed.journal.banks = s.journal.banks := by
  cases before : s.renewal.beforeArm with
  | false =>
    rw [flushed_of_not_beforeArm before]
    exact ⟨rfl, rfl, rfl, rfl, rfl, rfl, rfl⟩
  | true =>
    obtain ⟨v, -, refused⟩ := refuseBatch_eq ((s.setWarning true).setRun .flush).silencePorts .powerWarning
    rw [flushed_of_beforeArm before, refused]
    exact ⟨rfl, rfl, rfl, rfl, rfl, rfl, rfl⟩

end

/-- Settles O6: the event by run state; the entry to FLUSH is `State.flushed`, of which `flushed_frame` says what it does in either case and
`refuseBatch_eq` what it does to a batch before its ARM record; the end of an event in FLUSH is `settle_supply_of_flush`. -/
theorem pfwnAssertEntersFlush : Obligations.PfwnAssertEntersFlush := by
  refine ⟨fun s => ⟨execPfwnAssert_of_warning, fun run released => ?_, fun run released => execPfwnAssert_of_starting released run,
    fun run released => ?_⟩, fun s flush => ?_⟩
  · refine ⟨_, execPfwnAssert_of_fault released run, ?_, rfl⟩
    simp [State.acknowledges, State.setWarning, run]
  · obtain ⟨supply, portM, portL, time, commit, ring, banks⟩ := flushed_frame s
    obtain ⟨ends, silent⟩ := settle_of_flush s.flushed (by rw [supply])
    refine ⟨s.flushed, execPfwnAssert_of_run released run, ends, silent, supply, portM, portL, time, commit, ring, banks,
      fun settled => ?_, fun before => ?_⟩
    · rw [flushed_of_not_beforeArm settled]
      exact ⟨rfl, rfl, rfl, rfl, rfl, rfl, rfl⟩
    · obtain ⟨v, slots, refused⟩ := refuseBatch_eq ((s.setWarning true).setRun .flush).silencePorts .powerWarning
      rw [flushed_of_beforeArm before, refused]
      exact ⟨rfl, rfl, rfl, rfl, rfl, slots, rfl, rfl⟩
  · have run : s.settle.supply.run = if s.settle.drained = true then .quiescent else .flush := by rw [settle_supply_of_flush s flush]
    dsimp only
    rw [← drained_iff, run]
    exact ⟨fun drained => if_pos drained, fun busy => if_neg busy⟩

end Sys2Proof.Machine
end

section
/-! PROOFS. The demand queues (chapter 9): the table of arrivals, and READ_DEMAND. -/

namespace Sys2Proof.Machine

/-! ## The table of arrivals (R180) -/

section
variable {q : List Demand} {d e : Demand}

theorem Demand.same_of_eq (kind : e.kind = d.kind) (slot : e.slot = d.slot) : d.same e = true := by simp [Demand.same, kind, slot]

theorem Demand.same_eq_false_iff : d.same e = false ↔ e.kind ≠ d.kind ∨ e.slot ≠ d.slot := by
  rw [Demand.same, Bool.and_eq_false_iff, decide_eq_false_iff_not, decide_eq_false_iff_not]
  exact or_congr ne_comm ne_comm

theorem holdsMarker_iff : holdsMarker q = true ↔ ∃ e ∈ q, e.kind = .queueFull := by simp [holdsMarker]

theorem holdsMarker_eq_false_iff : holdsMarker q = false ↔ ∀ e ∈ q, e.kind ≠ .queueFull := by simp [holdsMarker]

/-- The entry with the fields that an arrival updates in place: all but kind and slot. -/
def Demand.updatedBy (e d : Demand) : Demand := ⟨e.kind, e.slot, d.generation, d.sequence, d.stamp⟩

/-- A demand whose kind and slot are listed updates every entry that has them, and stores none. -/
theorem arrive_of_listed (unmarked : holdsMarker q = false) (held : e ∈ q) (same : d.same e = true) :
    arrive q d = q.map fun e => if d.same e then e.updatedBy d else e := by
  unfold holdsMarker at unmarked
  rw [arrive, if_neg (by simp [unmarked]), if_pos (List.any_eq_true.mpr ⟨e, held, same⟩)]
  rfl

/-- A demand whose kind and slot are not listed is stored at the end, or the marker in its place from the 16th entry on (R181). -/
theorem arrive_of_unlisted (unmarked : holdsMarker q = false) (unlisted : ∀ x ∈ q, d.same x = false) :
    arrive q d = q ++ [if q.length ≤ 14 then d else ⟨.queueFull, none, none, none, d.stamp⟩] := by
  unfold holdsMarker at unmarked
  rw [arrive, if_neg (by simp [unmarked]), if_neg (by simpa using unlisted)]
  split <;> rfl

/-- Entries of other kinds and slots pass through an update in place. -/
theorem map_updatedBy_of_unlisted (others : ∀ x ∈ q, d.same x = false) :
    (q.map fun e => if d.same e then e.updatedBy d else e) = q :=
  (List.map_congr_left fun x held => if_neg (by simp [others x held])).trans q.map_id'

end

/-- Settles O30: one equation of `arrive` per case of the table; where one entry has the kind and slot, the update of all such entries
reaches that one alone. -/
theorem arrivalTable : Obligations.ArrivalTable := by
  refine fun q d => ⟨fun marked => arrive_of_marker (holdsMarker_iff.mpr marked), fun clear => ?_⟩
  have unmarked : holdsMarker q = false := holdsMarker_eq_false_iff.mpr clear
  refine ⟨fun before e after parts kind slot others => ?_, fun fresh => ?_⟩
  · have same : d.same e = true := Demand.same_of_eq kind slot
    have held : e ∈ q := by simp [parts]
    have differ : ∀ x ∈ before ++ after, d.same x = false := fun x other => Demand.same_eq_false_iff.mpr (others x other)
    obtain ⟨differ_before, differ_after⟩ := List.forall_mem_append.mp differ
    rw [arrive_of_listed unmarked held same, parts, List.map_append, List.map_cons, map_updatedBy_of_unlisted differ_before,
      map_updatedBy_of_unlisted differ_after, if_pos same, Demand.updatedBy]
  · have unlisted : ∀ x ∈ q, d.same x = false := fun x held => Demand.same_eq_false_iff.mpr (fresh x held)
    rw [arrive_of_unlisted unmarked unlisted]
    exact ⟨fun room => by rw [if_pos room], fun last => by rw [if_neg (by omega)]⟩

/-! ## READ_DEMAND (R182) -/

section
variable {s : State} {p : Port} {code : Byte}

@[simp] theorem State.setPort_queue (s : State) (p : Port) (r : PortRecord) (x : Port) : (s.setPort p r).queue x = s.queue x := by
  cases x <;> simp [State.queue]

@[simp] theorem State.setQueue_port (s : State) (p : Port) (q : List Demand) (x : Port) : (s.setQueue p q).port x = s.port x := by
  cases x <;> simp [State.port]

@[simp] theorem State.setQueue_queue (s : State) (p : Port) : s.setQueue p (s.queue p) = s := by cases p <;> rfl

theorem frameTaken_setQueue (s : State) (p : Port) (q : List Demand) :
    (s.frameTaken p).setQueue p q = (s.setQueue p q).frameTaken p := by cases p <;> rfl

theorem State.Holds.setQueue (holds : s.Holds p code) (q : List Demand) : (s.setQueue p q).Holds p code := by
  simpa [State.Holds] using holds

/-- The arbiter does not look at the demand queues. -/
theorem State.AtRest.setQueue (rest : s.AtRest) (x : Port) (q : List Demand) : (s.setQueue x q).AtRest :=
  rest.of_same (by simp) (by simp) (fun y => by simp [State.inCharge]) (by simp)

/-- READ_DEMAND on a part at rest: the queue loses its oldest entry, if it has one, and the port is answered at the take. -/
theorem execReadDemand_of_holds (holds : s.Holds p 0x22) (rest : s.AtRest) (payload : s.payload p = []) :
    exec (.readDemand p) s = .next ((s.setQueue p (s.queue p).tail).answered p .ok (readDemandReply (s.queue p))) := by
  have taken : (s.frameTaken p).takeReadDemand p =
      ((s.setQueue p (s.queue p).tail).frameTaken p).complete p .ok (readDemandReply (s.queue p)) := by
    have frame : emptyFrame ((s.frameTaken p).payload p) = .ok () := by rw [frameTaken_payload, payload]; rfl
    have queue : (s.frameTaken p).queue p = s.queue p := s.setPort_queue p _ p
    rw [State.takeReadDemand, frame, queue, frameTaken_setQueue]
    rfl
  refine congrArg Host.Outcome.next ?_
  rw [atStop_of_holds _ holds (by decide), taken]
  exact settle_complete_frameTaken (holds.setQueue _) (rest.setQueue p _) _ _

end

/-- Settles O28: an empty queue has an empty tail and leaves the part as it was but for its port. -/
theorem readDemandTakesTheOldest : Obligations.ReadDemandTakesTheOldest := by
  intro p s holds rest payload
  have event := execReadDemand_of_holds holds rest payload
  refine ⟨fun empty => ?_, fun d entries queue => ?_⟩
  · have unchanged : s.setQueue p [] = s := empty ▸ s.setQueue_queue p
    rw [event, empty, List.tail_nil, unchanged]
    rfl
  · rw [queue] at event
    exact ⟨event, by simp [State.attention, State.answered], by simp [State.answered]⟩

end Sys2Proof.Machine
end

section
/-! PROOFS. PART_STATUS (chapters 10 and 11): the reply spelled out by what slot 0 holds, and the event of its take. -/

namespace Sys2Proof.Machine

section
variable {s : State} {p : Port}

/-! ## F0 and the reply (R43, R201) -/

theorem f0_of_floor {k : Current} {f g : Nat} (current : (s.slot 0).current = some k) (counters : k.counters = .floor f g) :
    s.f0 = some f := by simp only [State.f0, current, counters]

theorem f0_of_no_current (empty : (s.slot 0).current = none) : s.f0 = none := by simp only [State.f0, empty]

theorem partStatusReply_of_f0_some {f : Nat} (f0 : s.f0 = some f) :
    s.partStatusReply = [s.supply.lifeCycle.code, s.supply.run.code] ++ beBytes 4 s.time.t ++
      [BitVec.ofNat 8 s.time.code, s.renewal.state.code, 0x01] ++ beBytes 4 f ++
      [s.portM.lastRefusal.code, s.portL.lastRefusal.code] := by
  rw [State.partStatusReply, f0, Option.isSome_some, flagByte_single, if_pos rfl, optBytes]

theorem partStatusReply_of_f0_none (f0 : s.f0 = none) :
    s.partStatusReply = [s.supply.lifeCycle.code, s.supply.run.code] ++ beBytes 4 s.time.t ++
      [BitVec.ofNat 8 s.time.code, s.renewal.state.code, 0x00] ++
      [s.portM.lastRefusal.code, s.portL.lastRefusal.code] := by
  rw [State.partStatusReply, f0, Option.isSome_none, flagByte_single, if_neg Bool.false_ne_true, optBytes, List.append_nil]

/-- The take of a frame closes the transfer of its port, which is no part of the reply; the last refusal stays (R194). -/
theorem partStatusReply_frameTaken (s : State) (p : Port) : (s.frameTaken p).partStatusReply = s.partStatusReply := by
  cases p <;> rfl

/-! ## The event of the take (R194, R201) -/

/-- PART_STATUS on a part at rest: the port is answered at the take, and the fields are those before it. -/
theorem execPartStatus_of_holds (holds : s.Holds p 0x21) (rest : s.AtRest) (payload : s.payload p = []) :
    exec (.partStatus p) s = .next (s.answered p .ok s.partStatusReply) := by
  have taken : (s.frameTaken p).takePartStatus p = (s.frameTaken p).complete p .ok s.partStatusReply := by
    have frame : emptyFrame ((s.frameTaken p).payload p) = .ok () := by rw [frameTaken_payload, payload]; rfl
    rw [State.takePartStatus, frame, partStatusReply_frameTaken]
    rfl
  refine congrArg Host.Outcome.next ?_
  rw [atStop_of_holds _ holds (by decide), taken]
  exact settle_complete_frameTaken holds rest .ok _

end

/-- Settles O27: one form of the reply where slot 0 holds a CURRENT and one where it holds none. -/
theorem partStatusReportsThePart : Obligations.PartStatusReportsThePart := by
  intro p s holds rest payload
  rw [execPartStatus_of_holds holds rest payload]
  exact ⟨fun k f g current counters => by rw [partStatusReply_of_f0_some (f0_of_floor current counters)],
    fun empty => by rw [partStatusReply_of_f0_none (f0_of_no_current empty)]⟩

end Sys2Proof.Machine
end

section
/-! PROOFS. What every event keeps: the laws of the demand queues, the time base, the journal and the ports, and the run state's part of the
law of an event's end, with T and Tb that do not fall. The laws are carried together, operation by operation in the order of the model. -/

namespace Sys2Proof.Machine

/-! ## The relation -/

/-- The part of the law of an event's end that needs no grant to have been made (R162, R163, R191): RUN only with the warning released,
and the latch set of each write frame open at ports that do not acknowledge. -/
def State.Hushed (s : State) : Prop :=
  (s.supply.run = .run → s.supply.warning = false) ∧
  ∀ p, s.acknowledges = false → (s.port p).framing = .write → (s.port p).latch = true

/-- `t` holds each law that `s` holds, and the same commands wait. -/
structure State.Keeps (s t : State) : Prop where
  pending : t.pending = s.pending
  demands : ∀ p, demandsLawful (s.queue p) → demandsLawful (t.queue p)
  time : s.time.Lawful → t.time.Lawful
  journal : s.journal.Lawful → t.journal.Lawful
  ports : ∀ p, (s.port p).Lawful → (t.port p).Lawful
  hushed : s.Hushed → t.Hushed

/-- `t` holds each law that `s` holds, neither T nor Tb has fallen, and no transfer has begun at a port in IDLE. -/
structure State.Advances (s t : State) : Prop extends s.Keeps t where
  rises : s.time.Lawful → s.time.t ≤ t.time.t ∧ s.time.tb ≤ t.time.tb
  idle : ∀ p, (s.port p).framing = .idle → (t.port p).framing = .idle

namespace State.Keeps

variable {s t u : State}

theorem trans (h : s.Keeps t) (h' : t.Keeps u) : s.Keeps u where
  pending := h'.pending.trans h.pending
  demands p := h'.demands p ∘ h.demands p
  time := h'.time ∘ h.time
  journal := h'.journal ∘ h.journal
  ports p := h'.ports p ∘ h.ports p
  hushed := h'.hushed ∘ h.hushed

theorem withTime (s : State) {b : TimeBase} (lawful : s.time.Lawful → b.Lawful) : s.Keeps { s with time := b } :=
  ⟨rfl, fun p => by cases p <;> exact id, lawful, id, fun p => by cases p <;> exact id, id⟩

end State.Keeps

namespace State.Advances

variable {s t u : State}

theorem refl (s : State) : s.Advances s := ⟨⟨rfl, fun _ => id, id, id, fun _ => id, id⟩, fun _ => ⟨Nat.le_refl _, Nat.le_refl _⟩, fun _ => id⟩

theorem trans (h : s.Advances t) (h' : t.Advances u) : s.Advances u where
  toKeeps := h.toKeeps.trans h'.toKeeps
  rises lawful :=
    ⟨Nat.le_trans (h.rises lawful).1 (h'.rises (h.time lawful)).1, Nat.le_trans (h.rises lawful).2 (h'.rises (h.time lawful)).2⟩
  idle p := h'.idle p ∘ h.idle p

/-- A walk over a list advances where each step does. -/
theorem foldl {α : Type} {f : State → α → State} (step : ∀ (s : State) a, s.Advances (f s a)) (l : List α) (s : State) :
    s.Advances (l.foldl f s) := by
  induction l generalizing s with
  | nil => exact .refl s
  | cons a rest ih => exact (step s a).trans (ih _)

/-! ### The updates that the operations are made of -/

/-- The slots, the engine, the arbiter, the renewal engine and the commit are no part of these laws. -/
theorem control (s : State) (sl : Vector Slot 24) (e : Option EngineOp) (a : Arbiter) (r : Renewal) (c : Option Commit) :
    s.Advances { s with slots := sl, engine := e, arbiter := a, renewal := r, commit := c } :=
  ⟨⟨rfl, fun p => by cases p <;> exact id, id, id, fun p => by cases p <;> exact id, id⟩, fun _ => ⟨Nat.le_refl _, Nat.le_refl _⟩,
    fun p => by cases p <;> exact id⟩

theorem setSlot (s : State) (i : Fin 24) (c : Slot) : s.Advances (s.setSlot i c) := control s _ _ _ _ _

theorem withQueues (s : State) {m l : List Demand} (lawfulM : demandsLawful s.queueM → demandsLawful m)
    (lawfulL : demandsLawful s.queueL → demandsLawful l) : s.Advances { s with queueM := m, queueL := l } :=
  ⟨⟨rfl, fun p => p.casesOn lawfulM lawfulL, id, id, fun p => by cases p <;> exact id, id⟩, fun _ => ⟨Nat.le_refl _, Nat.le_refl _⟩,
    fun p => by cases p <;> exact id⟩

theorem withTime (s : State) {b : TimeBase} (lawful : s.time.Lawful → b.Lawful)
    (rises : s.time.Lawful → s.time.t ≤ b.t ∧ s.time.tb ≤ b.tb) : s.Advances { s with time := b } :=
  ⟨.withTime s lawful, rises, fun p => by cases p <;> exact id⟩

theorem withJournal (s : State) {j : Journal} (lawful : s.journal.Lawful → j.Lawful) : s.Advances { s with journal := j } :=
  ⟨⟨rfl, fun p => by cases p <;> exact id, id, lawful, fun p => by cases p <;> exact id, id⟩, fun _ => ⟨Nat.le_refl _, Nat.le_refl _⟩,
    fun p => by cases p <;> exact id⟩

theorem withSupply (s : State) {p : Supply} (hushed : s.Hushed → State.Hushed { s with supply := p }) :
    s.Advances { s with supply := p } :=
  ⟨⟨rfl, fun p => by cases p <;> exact id, id, id, fun p => by cases p <;> exact id, hushed⟩, fun _ => ⟨Nat.le_refl _, Nat.le_refl _⟩,
    fun p => by cases p <;> exact id⟩

/-- The supply monitor may take any life-cycle state, fault mark and erase progress. -/
theorem withSupply_same (s : State) {p : Supply} (run : p.run = s.supply.run) (warning : p.warning = s.supply.warning) :
    s.Advances { s with supply := p } :=
  withSupply s fun h => by
    have ack : State.acknowledges { s with supply := p } = s.acknowledges := by simp [State.acknowledges, run, warning]
    exact ⟨fun running => warning.trans (h.1 (run.symm.trans running)), fun x off => by
      cases x
      · exact h.2 .M (ack.symm.trans off)
      · exact h.2 .L (ack.symm.trans off)⟩

end State.Advances

/-- The port record `r'` is lawful where `r` is, and has a write frame open only where `r` has, with the latch as it was or set. -/
structure PortRecord.Becomes (r r' : PortRecord) : Prop where
  lawful : r.Lawful → r'.Lawful
  latched : r'.framing = .write → r.framing = .write ∧ (r.latch = true → r'.latch = true)
  idle : r.framing = .idle → r'.framing = .idle

/-- A port's record replaced by a lawful one, whose write frame has its latch set where the ports do not acknowledge. -/
theorem State.Keeps.setPort (s : State) (p : Port) {r : PortRecord} (lawful : (s.port p).Lawful → r.Lawful)
    (latched : s.Hushed → s.acknowledges = false → r.framing = .write → r.latch = true) : s.Keeps (s.setPort p r) where
  pending := s.setPort_pending p r
  demands x := by cases p <;> cases x <;> exact id
  time := by cases p <;> exact id
  journal := by cases p <;> exact id
  ports x := by
    cases p <;> cases x
    · exact lawful
    · exact id
    · exact id
    · exact lawful
  hushed h := by
    refine ⟨by cases p <;> exact h.1, fun x off => ?_⟩
    have off : s.acknowledges = false := by cases p <;> exact off
    cases p <;> cases x
    · exact latched h off
    · exact h.2 .L off
    · exact h.2 .M off
    · exact latched h off

theorem State.Advances.setPort (s : State) (p : Port) {r : PortRecord} (becomes : (s.port p).Becomes r) :
    s.Advances (s.setPort p r) where
  toKeeps := .setPort s p becomes.lawful fun h off write => (becomes.latched write).2 (h.2 p off (becomes.latched write).1)
  rises _ := by rw [State.setPort_time]; exact ⟨Nat.le_refl _, Nat.le_refl _⟩
  idle x := by
    cases p <;> cases x
    · exact becomes.idle
    · exact id
    · exact id
    · exact becomes.idle

/-! ## Demands (R178 to R181) -/

theorem Demand.same_comm (d e : Demand) : d.same e = e.same d := by simp [Demand.same, eq_comm]

/-- A demand put at the end of a queue of at most 14 entries that holds neither the marker nor an entry of its kind and slot. -/
theorem demandsLawful_append {q : List Demand} {d : Demand} (lawful : demandsLawful q) (unmarked : holdsMarker q = false)
    (unlisted : ∀ e ∈ q, d.same e = false) (room : q.length ≤ 14 ∨ (q.length ≤ 15 ∧ d.kind = .queueFull)) :
    demandsLawful (q ++ [d]) := by
  obtain ⟨-, apart, -, -⟩ := lawful
  refine ⟨by rw [List.length_append, List.length_singleton]; omega, ?_, ?_, fun full => ⟨d, by simp, ?_⟩⟩
  · refine List.pairwise_append.mpr ⟨apart, List.pairwise_singleton _ _, fun e he d' hd => ?_⟩
    rw [List.mem_singleton.mp hd, Demand.same_comm]
    exact unlisted e he
  · rw [List.dropLast_concat]
    exact holdsMarker_eq_false_iff.mp unmarked
  · rw [List.length_append, List.length_singleton] at full
    rcases room with room | room
    · omega
    · exact room.2

/-- An arrival keeps the law of its queue (R180, R181). -/
theorem arrive_lawful {q : List Demand} (d : Demand) (lawful : demandsLawful q) : demandsLawful (arrive q d) := by
  cases marked : holdsMarker q with
  | true => rwa [arrive_of_marker marked]
  | false =>
    by_cases listed : ∃ e ∈ q, d.same e = true
    · obtain ⟨e, held, same⟩ := listed
      rw [arrive_of_listed marked held same]
      obtain ⟨bound, apart, inner, full⟩ := lawful
      have kept (e : Demand) : (if d.same e then e.updatedBy d else e).kind = e.kind ∧
          (if d.same e then e.updatedBy d else e).slot = e.slot := by
        cases d.same e <;> exact ⟨rfl, rfl⟩
      have none_marked := holdsMarker_eq_false_iff.mp marked
      refine ⟨by simpa using bound, ?_, fun x hx => ?_, fun long => ?_⟩
      · refine List.pairwise_map.mpr (apart.imp fun {a b} h => ?_)
        rw [Demand.same, (kept a).1, (kept a).2, (kept b).1, (kept b).2]
        exact h
      · obtain ⟨y, hy, rfl⟩ := List.mem_map.mp ((List.dropLast_sublist _).subset hx)
        rw [(kept y).1]
        exact none_marked y hy
      · obtain ⟨x, hx, kind⟩ := full (by simpa using long)
        exact absurd kind (none_marked x (List.mem_of_getLast? hx))
    · have unlisted : ∀ e ∈ q, d.same e = false := fun e he =>
        Bool.eq_false_iff.mpr fun same => listed ⟨e, he, same⟩
      have none_marked := holdsMarker_eq_false_iff.mp marked
      have bound : q.length ≤ 15 := Nat.le_of_not_lt fun long => by
        obtain ⟨x, hx, kind⟩ := lawful.2.2.2 (by have := lawful.1; omega)
        exact none_marked x (List.mem_of_getLast? hx) kind
      rw [arrive_of_unlisted marked unlisted]
      by_cases room : q.length ≤ 14
      · rw [if_pos room]
        exact demandsLawful_append lawful marked unlisted (.inl room)
      · rw [if_neg room]
        refine demandsLawful_append lawful marked (fun e he => ?_) (.inr ⟨bound, rfl⟩)
        exact Demand.same_eq_false_iff.mpr (.inl (none_marked e he))

/-- The removal of the oldest entry keeps the law of the queue (R182). -/
theorem tail_lawful {q : List Demand} (lawful : demandsLawful q) : demandsLawful q.tail := by
  obtain ⟨bound, apart, inner, -⟩ := lawful
  refine ⟨by simp; omega, apart.sublist (List.tail_sublist q), fun d hd => inner d ?_, fun full => ?_⟩
  · cases q with
    | nil => exact hd
    | cons e rest => cases rest <;> simp_all
  · simp at full
    omega

theorem State.Advances.raise (s : State) (w : PortSet) (d : Demand) : s.Advances (s.raise w d) := by
  unfold State.raise
  split <;> split
  · exact .withQueues s (arrive_lawful d) (arrive_lawful d)
  · exact .withQueues s (arrive_lawful d) id
  · exact .withQueues s id (arrive_lawful d)
  · exact .refl s

theorem State.Advances.raiseBatch (s : State) (k : DemandKind) (q : Nat) : s.Advances (s.raiseBatch k q) := .raise s _ _

theorem State.Advances.raiseSlot (s : State) (k : DemandKind) (i : Fin 24) (g : Nat) : s.Advances (s.raiseSlot k i g) := .raise s _ _

theorem State.SameBesides.eq_setSlot {s u : State} {i : Fin 24} (same : s.SameBesides i u) :
    { u with queueM := s.queueM, queueL := s.queueL } = s.setSlot i (u.slot i) := by
  obtain ⟨c, m, l, rfl⟩ := same
  simp [State.setSlot, State.slot]

/-! ## The shared operations -/

theorem PortRecord.completed_becomes (r : PortRecord) (st : Status) (b : List Byte) : r.Becomes (r.completed st b) := by
  unfold PortRecord.completed
  dsimp only
  split
  next stretch =>
    exact ⟨fun ⟨count, _, _, _⟩ => ⟨count, by simp, by simp, by simp⟩, nofun, fun idle => nomatch stretch.symm.trans idle⟩
  next => exact ⟨fun ⟨count, bus, stretch, _⟩ => ⟨count, bus, stretch, nofun⟩, fun write => ⟨write, id⟩, id⟩

section
variable (s : State) (p : Port)

theorem State.Advances.complete (st : Status) (b : List Byte) : s.Advances (s.complete p st b) :=
  .setPort s p (PortRecord.completed_becomes _ st b)

theorem State.Advances.refuse (st : Status) : s.Advances (s.refuse p st) := .complete s p st []

theorem State.Advances.handOver (w : Write) (r : Requester) : s.Advances (s.handOver w r) := by
  obtain ⟨-, room, e⟩ | ⟨-, full, e⟩ | ⟨-, -, e⟩ := handOver_cases s w r
  · rw [e]
    refine .withJournal s fun ⟨canonical, bound, waits, position⟩ => ⟨canonical, by simp; omega, .inl ?_, position⟩
    exact waits.resolve_right (by omega)
  · rw [e]
    exact .withJournal s fun ⟨canonical, bound, waits, position⟩ => ⟨canonical, bound, .inr (by dsimp only; omega), position⟩
  · rw [e]
    exact .refl s

theorem State.Advances.commitStart : s.Advances s.commitStart := by
  unfold State.commitStart
  split
  · exact .control s _ _ _ _ _
  · exact .refl s

theorem State.Advances.of_sameBesides {u : State} {i : Fin 24} (same : s.SameBesides i u)
    (lawful : ∀ p, demandsLawful (s.queue p) → demandsLawful (u.queue p)) : s.Advances u := by
  obtain ⟨c, m, l, rfl⟩ := same
  exact (State.Advances.setSlot s i c).trans (.withQueues _ (lawful .M) (lawful .L))

theorem State.Advances.setSlot_raiseSlot (i : Fin 24) (c : Slot) (k : DemandKind) (g : Nat) :
    s.Advances ((s.setSlot i c).raiseSlot k i g) := (State.Advances.setSlot s i c).trans (.raise _ _ _)

/-- Each slot record changed. -/
theorem State.Advances.mapSlots (f : Fin 24 → Slot → Slot) : s.Advances (s.mapSlots f) := by
  obtain ⟨_, -, e⟩ := mapSlots_eq s f
  rw [e]
  exact .control s _ _ _ _ _

/-! ## Marks and deadlines -/

variable (i : Fin 24)

theorem State.Advances.evaluateLow : s.Advances (s.evaluateLow i) := by
  unfold State.evaluateLow
  split
  · split
    · exact .setSlot_raiseSlot s i _ _ _
    · exact .refl s
  · exact .refl s

theorem State.Advances.evaluateSpent : s.Advances (s.evaluateSpent i) := by
  unfold State.evaluateSpent
  split
  · split
    · exact .setSlot_raiseSlot s i _ _ _
    · exact .refl s
  · exact .refl s

theorem State.Advances.lifeWarning : s.Advances (s.lifeWarning i) := by
  unfold State.lifeWarning
  split
  · split
    · exact .setSlot_raiseSlot s i _ _ _
    · exact .refl s
  · exact .refl s

theorem State.Advances.expire : s.Advances (s.expire i) := by
  unfold State.expire
  split
  · split
    · exact .setSlot_raiseSlot s i _ _ _
    · exact .refl s
  · exact .refl s

theorem State.Advances.endGrace : s.Advances (s.endGrace i) := by
  unfold State.endGrace
  split
  · split
    · exact .setSlot s i _
    · exact .refl s
  · exact .refl s

theorem State.Advances.lapsePin : s.Advances (s.lapsePin i) := by
  unfold State.lapsePin
  split
  · split
    · exact ((State.Advances.setSlot s i _).trans (.raise _ _ _)).trans (.commitStart _)
    · exact .refl s
  · exact .refl s

theorem State.Advances.slotDeadlines : s.Advances (s.slotDeadlines i) := by
  unfold State.slotDeadlines
  split
  · exact (((State.Advances.lifeWarning s i).trans (.expire _ i)).trans (.endGrace _ i)).trans (.lapsePin _ i)
  · exact .refl s

theorem State.Advances.scheduledActivation : s.Advances s.scheduledActivation := by
  unfold State.scheduledActivation
  split
  · split
    · exact (State.Advances.control s _ _ _ _ _).trans (.commitStart _)
    · exact .refl s
  · exact .refl s

theorem State.Advances.deadlines : s.Advances s.deadlines :=
  (State.Advances.foldl State.Advances.slotDeadlines _ s).trans (.scheduledActivation _)

theorem State.Advances.drain : s.Advances s.drain := by
  unfold State.drain
  split
  next h =>
    refine .withSupply s fun hushed => ⟨nofun, fun x _ => ?_⟩
    have off : s.acknowledges = false := by simp [State.acknowledges, h.1]
    cases x
    · exact hushed.2 .M off
    · exact hushed.2 .L off
  next => exact .refl s

/-! ## The key engine and the arbiter (R49 to R67) -/

theorem State.Advances.beginWait (r : WaitRecord) : s.Advances (s.beginWait i p r) := by
  unfold State.beginWait
  split
  · exact .refuse s p _
  · exact (State.Advances.setSlot s i _).trans (.handOver _ _ _)

theorem State.Advances.evaluateCounter : s.Advances ((s.evaluateLow i).evaluateSpent i) :=
  (State.Advances.evaluateLow s i).trans (.evaluateSpent _ i)

theorem State.Advances.issueStep (c : Current) : s.Advances (s.issueStep p i c) := by
  unfold State.issueStep
  split
  · split
    · exact ((State.Advances.setSlot s i _).trans (.evaluateCounter _ i)).trans (.control _ _ _ _ _ _)
    · exact .beginWait s p i _
  · exact .refl s

theorem State.Advances.enterMakeTag (slot : Nat) (expected : Option Nat) : s.Advances (s.enterMakeTag p slot expected) := by
  unfold State.enterMakeTag
  split
  · exact .refuse s p _
  · split
    · exact .setSlot s _ _
    · exact .issueStep s p _ _

theorem State.Advances.enterCheckTag (slot generation counter : Nat) (tag : Tag) :
    s.Advances (s.enterCheckTag p slot generation counter tag) := by
  unfold State.enterCheckTag
  split
  · exact .refuse s p _
  · split
    · exact .setSlot s _ _
    · split
      · exact .refuse s p _
      · split
        · exact .refuse s p _
        · exact .control s _ _ _ _ _

theorem State.Advances.enterPin (slot : Nat) : s.Advances (s.enterPin p slot) := by
  unfold State.enterPin
  split
  · exact .refuse s p _
  · split
    · exact .complete s p _ _
    · exact (State.Advances.setSlot s _ _).trans (.complete _ p _ _)

theorem State.Advances.enterUnpin (slot : Nat) : s.Advances (s.enterUnpin p slot) := by
  unfold State.enterUnpin
  split
  · exact .refuse s p _
  · exact ((State.Advances.setSlot s _ _).trans (.complete _ p _ _)).trans (.commitStart _)

theorem State.Advances.enter : s.Advances (s.enter p) := by
  unfold State.enter
  split
  · exact .enterMakeTag s p _ _
  · exact .enterCheckTag s p _ _ _ _
  · exact .enterPin s p _
  · exact .enterUnpin s p _
  · exact .refl s
  · exact .refl s

theorem State.Advances.grantResumed (r : Resumed) : s.Advances (s.grantResumed r) := by
  unfold State.grantResumed
  split
  · exact .complete s _ _ _
  · exact .enter s _

theorem State.Advances.grant {t : State} (granted : s.grant = some t) : s.Advances t := by
  obtain ⟨r, rest, rfl⟩ | rfl | ⟨c, rfl⟩ | ⟨p, rfl⟩ := grant_cases granted
  · exact (State.Advances.control s s.slots s.engine _ s.renewal s.commit).trans (.grantResumed _ r)
  · exact (State.Advances.control s _ _ _ _ _).trans (.handOver _ _ _)
  · exact .control s _ _ _ _ _
  · exact (State.Advances.control s _ _ _ _ _).trans (.enter _ p)

theorem State.Advances.grants (n : Nat) : s.Advances (State.grants n s) := by
  induction n generalizing s with
  | zero => exact .refl s
  | succ n ih =>
    rw [State.grants]
    split
    next granted => exact (State.Advances.grant s granted).trans (ih _)
    next => exact .refl s

theorem State.Advances.settle : s.Advances s.settle := (State.Advances.grants s _).trans (.drain _)

theorem State.Advances.acceptFloor (generation : Nat) (position : Position) (c : Nat) :
    s.Advances (s.acceptFloor i generation position c) := by
  unfold State.acceptFloor
  split
  · split
    · split
      · exact (State.Advances.setSlot s i _).trans (.evaluateCounter _ i)
      · exact .refl s
    · exact .refl s
  · split
    · split
      · exact .setSlot s i _
      · exact .refl s
    · exact .refl s

theorem State.Advances.compareTag (generation counter : Nat) (tag : Tag) (position : Position) (bank : Fin 3) (edge : Nat) :
    s.Advances (s.compareTag p i generation counter tag position bank edge) := by
  unfold State.compareTag
  dsimp only
  split
  · exact .refuse s p _
  · split
    · exact (State.Advances.acceptFloor s i _ _ _).trans (.complete _ p _ _)
    · exact .beginWait s p i _

theorem State.Advances.takeRecord (r : WaitRecord) : s.Advances (s.takeRecord i r) := by
  unfold State.takeRecord
  split
  · split
    · split
      · split
        · exact .setSlot s i _
        · exact .refl s
      · exact .refl s
    · exact .refl s
  · split
    · split
      · exact (State.Advances.setSlot s i _).trans (.evaluateCounter _ i)
      · exact .refl s
    · exact .refl s
  · split
    · split
      · exact .setSlot s i _
      · exact .refl s
    · exact .refl s

theorem State.Advances.endWait : s.Advances (s.endWait i) := by
  unfold State.endWait
  split
  · exact (State.Advances.takeRecord s i _).trans (.control _ _ _ _ _ _)
  · exact .refl s

theorem State.Advances.faultWait : s.Advances (s.faultWait i) := by
  unfold State.faultWait
  split
  · exact (State.Advances.setSlot s i _).trans (State.Advances.foldl (fun s p => .refuse s p _) _ _)
  · exact .refl s

end

end Sys2Proof.Machine
end

section
/-! PROOFS. What every event keeps, continued: checking and the commit (chapters 4 and 5), the time base (chapter 6), and the erase
(chapter 8). -/

namespace Sys2Proof.Machine

/-! ## The writes of a batch that ends early (R91, R145) -/

/-- A queue of at most 8 entries with freed places taken is within the bounds of the controller (R142). -/
theorem Journal.refilled_lawful {j : Journal} (canonical : j.Canonical) (bound : j.queue.length ≤ 8) (position : j.writePosition < 512)
    (failures : j.failures ≤ 1) : j.refilled.Lawful := by
  obtain ⟨short, waits⟩ := refill_bounds j.queue j.place bound
  exact ⟨canonical, short, waits, position, failures⟩

theorem Journal.batchEnded_lawful {j : Journal} (q : Nat) (lawful : j.Lawful) : (j.batchEnded q).Lawful := by
  obtain ⟨canonical, bound, -, position, failures⟩ := lawful
  refine Journal.refilled_lawful canonical ?_ position failures
  dsimp only
  split
  · simp
  next e rest queue =>
    have fewer := List.length_filter_le (fun x => !x.batchBank) rest
    rw [queue, List.length_cons] at bound
    rw [List.length_cons, List.length_map]
    omega

section
variable (s : State)

/-! ## Checking -/

theorem State.Advances.endBatch (result : BatchResult) : s.Advances (s.endBatch result) := by
  obtain ⟨v, -, e⟩ := endBatch_eq s result
  rw [e]
  exact (State.Advances.control s v _ _ _ _).trans (.withJournal _ (Journal.batchEnded_lawful _))

theorem State.Advances.refuseBatch (reason : BatchReason) : s.Advances (s.refuseBatch reason) :=
  (State.Advances.endBatch s _).trans (.raiseBatch _ _ _)

theorem State.Advances.setStage (g : CheckStage) : s.Advances (s.setStage g) := .control s _ _ _ _ _

theorem State.Advances.addOutcome (o : StepOutcome) : s.Advances (s.addOutcome o) := .control s _ _ _ _ _

theorem State.Advances.handArm : s.Advances s.handArm := (State.Advances.control s _ _ _ _ _).trans (.handOver _ _ _)

theorem State.Advances.handSteps (steps : List AppliedStep) : s.Advances (State.handSteps steps s) := by
  induction steps generalizing s with
  | nil => exact .control s _ _ _ _ _
  | cons a rest ih =>
    have handed := State.Advances.handOver s (.append (.step s.renewal.sequence a)) (.checkStep true rest.isEmpty)
    unfold State.handSteps
    cases s.handing with
    | queued => exact handed.trans (ih _)
    | placed => exact handed.trans (.control _ _ _ _ _ _)
    | faulted => exact .refl s

theorem State.Advances.beginRecords : s.Advances s.beginRecords := by
  unfold State.beginRecords
  have applied := State.Advances.control s s.slots s.engine s.arbiter { s.renewal with applied := s.appliedSteps } s.commit
  dsimp only
  split
  · exact applied.trans (.handArm _)
  · exact applied.trans (.handSteps _ _)

theorem State.Advances.tryImages : s.Advances s.tryImages := by
  unfold State.tryImages
  split
  · exact .beginRecords s
  · exact .refl s

theorem State.Advances.takeSteps (steps : List StepRecord) (n : Nat) : s.Advances (State.takeSteps steps n s) := by
  induction steps generalizing s n with
  | nil => exact (State.Advances.control s _ _ _ _ _).trans (.tryImages _)
  | cons r rest ih =>
    unfold State.takeSteps
    split
    · split
      · exact .refuseBatch s _
      · exact (State.Advances.control s _ _ _ _ _).trans (ih _ _)
    · split
      · exact .control s _ _ _ _ _
      · exact (State.Advances.control s _ _ _ _ _).trans (ih _ _)

theorem State.Advances.stepsFrom (n : Nat) : s.Advances (s.stepsFrom n) := .takeSteps s _ n

theorem State.Advances.beginChecking (tag : Tag) : s.Advances (s.beginChecking tag) := by
  unfold State.beginChecking
  split
  · exact .refuseBatch s _
  · exact .control s _ _ _ _ _

theorem State.Advances.authenticated (verdict : Bool) (g : Nat) : s.Advances (s.authenticated verdict g) := by
  unfold State.authenticated
  split
  · exact (State.Advances.control s _ _ _ _ _).trans (.handOver _ _ _)
  · exact .refuseBatch s _

theorem State.Advances.unwrapped (n : Nat) (part : StepPart) (slot : Fin 24) (g : Nat) (bank : Fin 3) (key : Key) :
    s.Advances (s.unwrapped n part slot g bank key) := by
  unfold State.unwrapped
  dsimp only
  have pending (c : Slot) : s.Advances ((s.setSlot slot c).addOutcome .applied) :=
    (State.Advances.setSlot s slot c).trans (.addOutcome _ _)
  split
  · exact ((pending _).trans (.handOver _ _ _)).trans (.stepsFrom _ _)
  · exact ((pending _).trans (.handOver _ _ _)).trans (.setStage _ _)
  · exact pending _

theorem State.Advances.unwrapFailed (n : Nat) (r : StepRecord) : s.Advances (s.unwrapFailed n r) := by
  unfold State.unwrapFailed
  split
  · exact .refuseBatch s _
  · exact (State.Advances.control s _ _ _ _ _).trans (.stepsFrom _ _)

theorem State.Advances.takeUnwrap (slot : Fin 24) (g : Nat) (bank : Fin 3) (out : Option Key) :
    s.Advances (s.takeUnwrap slot g bank out) := by
  unfold State.takeUnwrap
  split
  · split
    · split
      · exact .unwrapped s _ _ _ _ _ _
      · exact .unwrapFailed s _ _
    · exact .refl s
  · exact .refl s

theorem State.Advances.takeSequence (g v : Nat) : s.Advances (s.takeSequence g v) := by
  unfold State.takeSequence
  split
  · split
    · exact (State.Advances.setSlot s 0 _).trans (.evaluateSpent _ 0)
    · exact .refl s
  · exact .refl s

theorem State.Advances.beginSteps : s.Advances s.beginSteps := (State.Advances.control s _ _ _ _ _).trans (.stepsFrom _ 0)

theorem State.Advances.imageWritten (i : Fin 24) : s.Advances (s.imageWritten i) :=
  (State.Advances.setSlot s i _).trans (.tryImages _)

theorem State.Advances.beginDisarm : s.Advances s.beginDisarm := (State.Advances.control s _ _ _ _ _).trans (.handOver _ _ _)

theorem State.Advances.armed : s.Advances s.armed := by
  unfold State.armed
  dsimp only
  have scheduled := ((State.Advances.control s s.slots s.engine s.arbiter { s.renewal with
    state := .armed, buffer := [], authenticator := none, checking := none, activation := false, disarm := false,
    result := { s.renewal.result with outcome := .armed } } s.commit).trans (.raiseBatch _ .batchArmed s.renewal.sequence)).trans
    (.scheduledActivation _)
  split
  · exact scheduled.trans (.beginDisarm _)
  · exact scheduled

theorem State.Advances.disarmed : s.Advances s.disarmed := by
  unfold State.disarmed
  dsimp only
  have dropped := (State.Advances.mapSlots s fun _ c => { c with next := none }).trans
    (.control _ s.dropNexts.slots s.dropNexts.engine s.dropNexts.arbiter { Renewal.idle with
      result := ⟨s.renewal.sequence, .cancelled, s.renewal.result.steps⟩, lastCommitted := s.renewal.lastCommitted } s.dropNexts.commit)
  split
  · exact dropped.trans (.complete _ _ _ _)
  · exact dropped

theorem State.Advances.checkingPlaced (r : Requester) : s.Advances (s.checkingPlaced r) := by
  unfold State.checkingPlaced
  split
  · split
    · exact .stepsFrom s _
    · exact .refl s
  · split
    · exact .handSteps s _
    · exact .refl s
  · exact .refl s

/-! ## The erase (R176) -/

theorem State.Advances.setErase (e : Erase) : s.Advances (s.setErase e) := .withSupply_same s rfl rfl

theorem State.Advances.eraseOn (n : Nat) : s.Advances (State.eraseOn n s) := by
  induction n generalizing s with
  | zero => exact .refl s
  | succ n ih =>
    unfold State.eraseOn
    split
    · split
      · exact (State.Advances.setErase s _).trans (ih _)
      · split
        · exact .handOver s _ _
        · exact .refl s
    · exact .refl s
    · exact .refl s

theorem State.Advances.eraseGo : s.Advances s.eraseGo := .eraseOn s 97

theorem State.Advances.eraseDone : s.Advances s.eraseDone := by
  unfold State.eraseDone
  split
  · dsimp only
    split
    · exact (State.Advances.setSlot s _ _).trans (.setErase _ _)
    · exact .setErase s _
  · exact .refl s
  · exact .refl s

/-! ## The commit -/

theorem State.Advances.handEnd : s.Advances s.handEnd := (State.Advances.control s _ _ _ _ _).trans (.handOver _ _ _)

theorem State.Advances.handRecords (bodies : List Body) : s.Advances (State.handRecords bodies s) := by
  induction bodies generalizing s with
  | nil => exact .control s _ _ _ _ _
  | cons b rest ih =>
    have handed := State.Advances.handOver s (.append b) (.commitRecord rest.isEmpty)
    unfold State.handRecords
    cases s.handing with
    | queued => exact handed.trans (ih _)
    | placed => exact handed.trans (.control _ _ _ _ _ _)
    | faulted => exact .refl s

theorem State.Advances.computeCommit : s.Advances s.computeCommit := by
  unfold State.computeCommit
  split
  next c _ =>
    have computed := State.Advances.control s s.slots s.engine s.arbiter s.renewal (some { c with
      slots := (s.compute c.tc s.renewal.sequence s.renewal.applied).1
      lifecycle := (s.compute c.tc s.renewal.sequence s.renewal.applied).2.1 })
    dsimp only
    split
    · exact computed.trans (.handEnd _)
    · exact computed.trans (.handRecords _ _)
  next => exact .refl s

theorem State.Advances.commitPlaced : s.Advances s.commitPlaced := by
  unfold State.commitPlaced
  split
  · split
    · exact .handRecords s _
    · exact .refl s
  · exact .refl s

theorem State.Advances.takeAll (cs : List NewSlot) : s.Advances (s.takeAll cs) := State.Advances.foldl (fun s _ => .setSlot s _ _) cs s

theorem State.Advances.takeLifecycle (change : Option (LifeCycle × Option Nat)) : s.Advances (s.takeLifecycle change) := by
  unfold State.takeLifecycle
  split
  next target code =>
    exact (State.Advances.withSupply_same s (p := { s.supply with lifeCycle := target }) rfl rfl).trans
      (.withTime _ id fun _ => ⟨Nat.le_refl _, Nat.le_refl _⟩)
  next => exact .refl s

theorem State.Advances.raiseInstalledSpent (c : NewSlot) : s.Advances (s.raiseInstalledSpent c) := by
  unfold State.raiseInstalledSpent
  split
  · split
    · split
      · exact .raiseSlot s _ _ _
      · exact .refl s
    · exact .refl s
  · exact .refl s

theorem State.Advances.endSlot (c : NewSlot) : s.Advances (s.endSlot c) :=
  ((((State.Advances.evaluateLow s _).trans (.raiseInstalledSpent _ c)).trans (.lifeWarning _ _)).trans (.expire _ _)).trans
    (.endGrace _ _)

theorem State.lifeWarning_sameBesides (i : Fin 24) : s.SameBesides i (s.lifeWarning i) := by
  unfold State.lifeWarning
  split
  · split
    · exact (State.SameBesides.setSlot s i _).trans (.raise _ i _ _)
    · exact .refl s i
  · exact .refl s i

theorem State.expire_sameBesides (i : Fin 24) : s.SameBesides i (s.expire i) := by
  unfold State.expire
  split
  · split
    · exact (State.SameBesides.setSlot s i _).trans (.raise _ i _ _)
    · exact .refl s i
  · exact .refl s i

theorem State.endGrace_sameBesides (i : Fin 24) : s.SameBesides i (s.endGrace i) := by
  unfold State.endGrace
  split
  · split
    · exact .setSlot s i _
    · exact .refl s i
  · exact .refl s i

/-- The evaluation in the commit that retires the part changes its slot alone (R116, R175). -/
theorem endSlotQuiet_eq (c : NewSlot) : ∃ k, s.endSlotQuiet c = s.setSlot c.slot k :=
  ⟨_, (((s.lifeWarning_sameBesides c.slot).trans (State.expire_sameBesides _ c.slot)).trans
    (State.endGrace_sameBesides _ c.slot)).eq_setSlot⟩

theorem State.Advances.endSlotQuiet (c : NewSlot) : s.Advances (s.endSlotQuiet c) := by
  obtain ⟨k, e⟩ := endSlotQuiet_eq s c
  rw [e]
  exact .setSlot s _ k

theorem State.Advances.commitEnded (c : Commit) : s.Advances (s.commitEnded c) := by
  unfold State.commitEnded
  dsimp only
  have ended := (((State.Advances.takeAll s c.slots).trans (.takeLifecycle _ c.lifecycle)).trans (.control _
    ((s.takeAll c.slots).takeLifecycle c.lifecycle).slots ((s.takeAll c.slots).takeLifecycle c.lifecycle).engine
    { ((s.takeAll c.slots).takeLifecycle c.lifecycle).arbiter with hold := .none }
    { Renewal.idle with
      result := ⟨s.renewal.sequence, .done, s.renewal.result.steps⟩, lastCommitted := s.renewal.sequence } none)).trans
    (.raiseBatch _ .batchDone s.renewal.sequence)
  split
  · exact (((ended.trans (State.Advances.foldl State.Advances.endSlotQuiet _ _)).trans (.mapSlots _ _)).trans (.setErase _ _)).trans
      (.eraseGo _)
  · exact ended.trans (State.Advances.foldl State.Advances.endSlot _ _)

/-! ## The time base (R124 to R127) -/

/-- The checkpoint test puts a bound above Tb in flight (R126). -/
theorem State.Advances.checkpointTest : s.Advances s.checkpointTest := by
  unfold State.checkpointTest
  split
  next due =>
    obtain ⟨-, -, below, near⟩ := due
    dsimp only
    refine State.Advances.trans (.withTime s (b := { s.time with checkpoint := some s.nextCheckpoint })
      (fun ⟨bound, _, _⟩ => ⟨bound, fun v hv => ?_, fun _ => rfl⟩) fun _ => ⟨Nat.le_refl _, Nat.le_refl _⟩) (.handOver _ _ _)
    rw [← Option.mem_some.mp hv]
    exact Nat.lt_min.mpr ⟨by dsimp only; omega, below⟩
  next => exact .refl s

/-- A tick that advances T, where the time base may take it. -/
theorem State.Advances.advanceT_of {b : TimeBase} (lawful : s.time.Lawful → TimeBase.Lawful { b with t := b.t + 1 })
    (rises : s.time.Lawful → s.time.t ≤ b.t + 1 ∧ s.time.tb ≤ b.tb) : s.Advances (State.advanceT { s with time := b }) :=
  ((State.Advances.withTime s lawful rises).trans (.checkpointTest _)).trans (.deadlines _)

/-- Tb has taken the checkpoint in flight, and a deferred tick is no longer one (R127). -/
def State.bounded (s : State) : State :=
  { s with time := { s.time with tb := s.time.checkpoint.getD s.time.tb, checkpoint := none, deferred := false } }

theorem timeWritten_eq : s.timeWritten = (if s.time.deferred then s.bounded.advanceT else s.bounded).checkpointTest := by
  unfold State.timeWritten State.bounded
  cases s.time.checkpoint <;> rfl

/-- The completion of a TIME record takes the larger bound before the deferred tick (R127). -/
theorem State.Advances.timeWritten : s.Advances s.timeWritten := by
  have raised (lawful : s.time.Lawful) : s.time.tb ≤ s.time.checkpoint.getD s.time.tb := by
    cases checkpoint : s.time.checkpoint with
    | none => exact Nat.le_refl _
    | some w => exact Nat.le_of_lt (lawful.2.1 w checkpoint)
  rw [timeWritten_eq]
  split
  next deferred =>
    have ticked : s.Advances s.bounded.advanceT := by
      refine State.Advances.advanceT_of s (b := s.bounded.time) (fun lawful => ⟨?_, nofun, nofun⟩) fun lawful =>
        ⟨Nat.le_succ _, raised lawful⟩
      obtain ⟨v, checkpoint⟩ := Option.isSome_iff_exists.mp (lawful.2.2 deferred)
      have above := lawful.2.1 v checkpoint
      simp only [State.bounded, checkpoint, Option.getD_some]
      exact Nat.lt_of_le_of_lt lawful.1 above
    exact ticked.trans (.checkpointTest _)
  next =>
    have bounded : s.Advances s.bounded := .withTime s (b := s.bounded.time)
      (fun lawful => ⟨Nat.le_trans lawful.1 (raised lawful), nofun, nofun⟩) fun lawful => ⟨Nat.le_refl _, raised lawful⟩
    exact bounded.trans (.checkpointTest _)

theorem State.Advances.windowExpiry : s.Advances s.windowExpiry := by
  unfold State.windowExpiry
  split
  · exact .refuseBatch s _
  · exact .refl s

theorem State.Advances.beat : s.Advances s.beat := by
  unfold State.beat
  split
  · exact .control s _ _ _ _ _
  · exact .refl s

theorem State.Advances.slotEvent (slot : Nat) {f : Fin 24 → State} (h : ∀ i, s.Advances (f i)) : s.Advances (s.slotEvent slot f) := by
  unfold State.slotEvent
  split
  · split
    · exact h _
    · exact .refl s
  · exact .refl s

end

end Sys2Proof.Machine
end

section
/-! PROOFS. What every event keeps, continued: start-up and the supply monitor (chapter 8), and the writes in service (chapter 7). -/

namespace Sys2Proof.Machine

/-! ## The journal's operations keep its law (R137, R142) -/

namespace Journal

variable {j : Journal}

/-- The store changed in canonical form, with the bounds of the controller as they were. -/
theorem Lawful.withStore (lawful : j.Lawful) {t : Journal} (canonical : t.Canonical) (queue : t.queue = j.queue)
    (place : t.place = j.place) (position : t.writePosition < 512) (failures : t.failures = j.failures) : t.Lawful := by
  obtain ⟨-, bound, waits, -, failed⟩ := lawful
  exact ⟨canonical, queue ▸ bound, by rwa [queue, place], position, failures ▸ failed⟩

theorem Lawful.position (lawful : j.Lawful) : j.writePosition < 512 := lawful.2.2.2.1

theorem Lawful.withLive (lawful : j.Lawful) (live : List Nat) : Journal.Lawful { j with live := live } := lawful

theorem Lawful.advance (lawful : j.Lawful) : j.advance.Lawful :=
  lawful.withStore (t := j.advance) lawful.1 rfl rfl (nextPosition_lt lawful.position) rfl

theorem Lawful.put (lawful : j.Lawful) (b : Body) : (j.put b).Lawful :=
  lawful.withStore (j.put_canonical b lawful.position lawful.1) rfl rfl lawful.position rfl

theorem Lawful.spoil (lawful : j.Lawful) : j.spoil.Lawful :=
  lawful.withStore (j.spoil_canonical lawful.position lawful.1) rfl rfl lawful.position rfl

theorem Lawful.appended (lawful : j.Lawful) (b : Body) (keep : Bool) : (j.appended b keep).Lawful :=
  ((lawful.put b).withLive _).advance

theorem Lawful.copied (lawful : j.Lawful) (r : Record) : (j.copied r).Lawful := ((lawful.put r.body).withLive _).advance

theorem Lawful.writeBank (lawful : j.Lawful) (i : Fin 24) (k : Fin 3) (g : Nat) (key : Key) : (j.writeBank i k g key).Lawful :=
  lawful.withStore (j.writeBank_canonical i k g key lawful.1) rfl rfl lawful.position rfl

theorem Lawful.spoilBank (lawful : j.Lawful) (i : Fin 24) (k : Fin 3) : (j.spoilBank i k).Lawful :=
  lawful.withStore (j.spoilBank_canonical i k lawful.1) rfl rfl lawful.position rfl

theorem Lawful.eraseBank (lawful : j.Lawful) (i : Fin 24) (k : Fin 3) : (j.eraseBank i k).Lawful :=
  lawful.withStore (j.eraseBank_canonical i k lawful.1) rfl rfl lawful.position rfl

theorem Lawful.stepOver (lawful : j.Lawful) (n : Nat) : (Journal.stepOver n j).Lawful := by
  induction n generalizing j with
  | zero => exact lawful
  | succ n ih =>
    unfold Journal.stepOver
    split
    · exact ih lawful.advance
    · exact lawful

theorem Lawful.firstFailure (lawful : j.Lawful) (w : Write) : (j.firstFailure w).Lawful := by
  unfold Journal.firstFailure Journal.appendFailed
  split
  · split
    · exact lawful.spoil.advance
    · exact lawful.spoil.advance.advance.stepOver 512
  · exact lawful.spoilBank _ _
  · exact lawful.spoilBank _ _

theorem Lawful.secondFailure (lawful : j.Lawful) (w : Write) : (j.secondFailure w).Lawful := by
  unfold Journal.secondFailure
  split
  · exact lawful.spoil
  · exact lawful.spoilBank _ _
  · exact lawful.spoilBank _ _

theorem Lawful.dropped (lawful : j.Lawful) : j.dropped.Lawful :=
  ⟨lawful.1, Nat.zero_le _, .inl rfl, lawful.position, Nat.zero_le _⟩

/-- The write that an abort cuts leaves a canonical store (R151). -/
theorem Lawful.cut_canonical (lawful : j.Lawful) (c : Cut) : (j.cut c).Canonical := by
  unfold Journal.cut
  split
  · exact lawful.1
  · split
    · exact lawful.1
    · split
      · exact (lawful.put _).1
      · exact (lawful.put _).1
    · exact lawful.spoil.1
    · exact (lawful.writeBank _ _ _ _).1
    · exact (lawful.spoilBank _ _).1
    · exact (lawful.eraseBank _ _).1
    · exact (lawful.spoilBank _ _).1

end Journal

/-- The newest of the records that `is` picks is one of them. -/
theorem latest_mem {newest : BitVec 8} {is : Body → Bool} {recs : List Placed} :
    ∀ e ∈ latest newest is recs, e ∈ recs ∧ is e.2.body = true := by
  unfold latest
  refine List.foldlRecOn (motive := fun best => ∀ e ∈ best, e ∈ recs ∧ is e.2.body = true) recs _
    (fun e none => absurd none (Option.not_mem_none e)) (fun best kept x listed => ?_)
  intro e he
  split at he
  next picked =>
    split at he
    · exact Option.mem_some.mp he ▸ ⟨listed, picked⟩
    · split at he
      · exact Option.mem_some.mp he ▸ ⟨listed, picked⟩
      · exact kept e he
  next => exact kept e he

/-- The position of a valid record is one of the ring's (R139). -/
theorem validRecords_position_lt {ring : List (Nat × RingCell)} {n : Nat} (bound : keysBelow n ring = true) {e : Placed}
    (listed : e ∈ validRecords ring) : e.1 < n := by
  obtain ⟨x, hx, found⟩ := List.mem_filterMap.mp listed
  obtain ⟨r, -, rfl⟩ := Option.map_eq_some_iff.mp found
  simpa using (List.all_eq_true.mp bound) x hx

theorem Journal.scanned_lawful {j : Journal} (lawful : j.Lawful) : j.scanned.Lawful := by
  unfold Journal.scanned
  dsimp only
  split
  next p r found =>
    exact ⟨lawful.1, Nat.zero_le _, .inl rfl, nextPosition_lt (validRecords_position_lt lawful.1.2.1 (latest_mem _ found).1), Nat.zero_le _⟩
  next => exact ⟨lawful.1, Nat.zero_le _, .inl rfl, Nat.zero_lt_succ _, Nat.zero_le _⟩

section
variable (s : State)

/-! ## Start-up (R152 to R157, R169 to R171) -/

theorem State.Advances.markIf (bad : Bool) : s.Advances (s.markIf bad) := by
  unfold State.markIf
  split
  · exact .withSupply_same s rfl rfl
  · exact .refl s

theorem State.Advances.rebuildLifecycle (c : Scan) : s.Advances (s.rebuildLifecycle c) := by
  have taken (l : LifeCycle) (code : Nat) :
      s.Advances { s with supply := { s.supply with lifeCycle := l }, time := { s.time with code := code } } :=
    (State.Advances.withSupply_same s (p := { s.supply with lifeCycle := l }) rfl rfl).trans
      (.withTime _ (b := { s.time with code := code }) id fun _ => ⟨Nat.le_refl _, Nat.le_refl _⟩)
  unfold State.rebuildLifecycle
  split
  · exact taken _ _
  · exact (taken _ _).trans (.markIf _ _)

theorem State.Advances.rebuild (c : Scan) : s.Advances (s.rebuild c) :=
  ((State.Advances.rebuildLifecycle s c).trans (.mapSlots _ _)).trans (.markIf _ _)

/-- Start-up sets T and Tb from the store, so that here alone they may fall (R129). -/
theorem State.Keeps.restoreTime (c : Scan) : s.Keeps (s.restoreTime c) := by
  have restored (t : Nat) : s.Keeps { s with time := s.time.restored t } := .withTime s fun _ => ⟨Nat.le_refl _, nofun, nofun⟩
  unfold State.restoreTime
  split
  · exact restored _
  · exact (restored _).trans (State.Advances.markIf _ _).toKeeps

theorem State.Advances.restoreNext (a : AppliedStep) : s.Advances (s.restoreNext a) := by
  unfold State.restoreNext
  split
  · exact .setSlot s _ _
  · exact .refl s

theorem State.Advances.batches (c : Scan) : s.Advances (s.batches c) := by
  unfold State.batches
  split
  next q tc _ =>
    have opened (bad : Bool) : s.Advances (State.markIf { s with renewal := .opened q (c.steps q) } bad) :=
      (State.Advances.control s s.slots s.engine s.arbiter (.opened q (c.steps q)) s.commit).trans (.markIf _ bad)
    dsimp only
    split
    · exact opened _
    · exact ((opened _).trans (.control _ _ _ _ _ _)).trans (.computeCommit _)
  next =>
    split
    next q tick outcomes _ =>
      exact ((State.Advances.control s _ _ _ _ _).trans (State.Advances.foldl State.Advances.restoreNext (c.steps q) _)).trans
        (.markIf _ _)
    next => exact .refl s

theorem State.Advances.slotConditions (i : Fin 24) : s.Advances (s.slotConditions i) := by
  unfold State.slotConditions
  have low := State.Advances.evaluateLow s i
  have rest (t : State) : t.Advances (((t.lifeWarning i).expire i).endGrace i) :=
    ((State.Advances.lifeWarning t i).trans (.expire _ i)).trans (.endGrace _ i)
  dsimp only
  split
  · split
    · exact (low.trans (.raiseSlot _ _ _ _)).trans (rest _)
    · exact low.trans (rest _)
  · exact low.trans (rest _)

theorem State.Advances.conditions : s.Advances s.conditions := by
  unfold State.conditions
  dsimp only
  have restarted := State.Advances.raise s .both ⟨.restarted, none, none, none, s.now⟩
  have slots := restarted.trans (State.Advances.foldl State.Advances.slotConditions (List.finRange 24) _)
  split
  · exact restarted
  · split
    · exact (slots.trans (.control _ _ _ _ _ _)).trans (.raiseBatch _ _ _)
    · exact slots

/-- Ports that acknowledge do so still when start-up has ended, since the warning is then released. -/
theorem hushed_endState (hushed : s.Hushed) : State.Hushed { s with supply := { s.supply with run := s.supply.endState } } := by
  refine ⟨fun run => ?_, fun p off => ?_⟩
  · cases warning : s.supply.warning with
    | false => rfl
    | true => cases mark : s.supply.faultMark <;> simp [Supply.endState, mark, warning] at run
  · have off' : s.acknowledges = false := by
      cases warning : s.supply.warning with
      | false => cases mark : s.supply.faultMark <;> simp [State.acknowledges, Supply.endState, mark, warning] at off
      | true =>
        have stopped : s.supply.run ≠ .run := fun run => nomatch (hushed.1 run).symm.trans warning
        simp [State.acknowledges, stopped, warning]
    cases p
    · exact hushed.2 .M off'
    · exact hushed.2 .L off'

theorem State.Advances.endStartup : s.Advances s.endStartup := by
  have becomes (r : PortRecord) (a : BitVec 7) : r.Becomes { r with address := a } := ⟨id, fun write => ⟨write, id⟩, id⟩
  have ended : s.Advances { s with
      supply := { s.supply with run := s.supply.endState }
      time := { s.time with tickTimer := .running, beatTimer := .running }
      portM := { s.portM with address := portAddress s.supply.adrM }
      portL := { s.portL with address := portAddress s.supply.adrL } } :=
    ((State.Advances.withSupply s (hushed_endState s)).trans
      (.withTime _ (b := { s.time with tickTimer := .running, beatTimer := .running }) id fun _ => ⟨Nat.le_refl _, Nat.le_refl _⟩)).trans
      ((State.Advances.setPort _ .M (becomes _ _)).trans (.setPort _ .L (becomes _ _)))
  unfold State.endStartup
  dsimp only
  split
  · exact (ended.trans (.checkpointTest _)).trans (.commitStart _)
  · exact ended

theorem State.Advances.finish : s.Advances s.finish := (State.Advances.conditions s).trans (.endStartup _)

theorem State.Advances.retirement : s.Advances s.retirement := by
  unfold State.retirement
  have erased := (State.Advances.setErase s (.at 0 0)).trans (.eraseGo _)
  split
  · dsimp only
    split
    · exact erased
    · exact erased.trans (.finish _)
  · exact .finish s

theorem State.Advances.rolledForward (c : Commit) : s.Advances (s.rolledForward c) :=
  (((State.Advances.takeAll s c.slots).trans (.takeLifecycle _ c.lifecycle)).trans (.control _
    ((s.takeAll c.slots).takeLifecycle c.lifecycle).slots ((s.takeAll c.slots).takeLifecycle c.lifecycle).engine
    ((s.takeAll c.slots).takeLifecycle c.lifecycle).arbiter { Renewal.idle with lastCommitted := s.renewal.sequence } none)).trans
    (.retirement _)

theorem State.Keeps.startUp : s.Keeps s.startUp := by
  unfold State.startUp
  dsimp only
  have scanned := (State.Advances.withJournal s Journal.scanned_lawful).trans
    (.withSupply_same _ (p := { s.supply with faultMark := false }) rfl rfl)
  have batched := ((scanned.trans (.rebuild _ (scanRing s.journal.ring))).toKeeps.trans
    (.restoreTime _ (scanRing s.journal.ring))).trans (State.Advances.batches _ (scanRing s.journal.ring)).toKeeps
  split
  · exact batched
  · exact batched.trans (State.Advances.retirement _).toKeeps

/-! ## The supply monitor (R150, R163 to R168) -/

theorem PortRecord.silenced_becomes (r : PortRecord) : r.Becomes r.silenced := by
  unfold PortRecord.silenced
  split
  next write => exact ⟨id, fun _ => ⟨write, fun _ => rfl⟩, id⟩
  next => exact ⟨id, fun write => ⟨write, id⟩, id⟩

theorem PortRecord.silenced_latch {r : PortRecord} (write : r.silenced.framing = .write) : r.silenced.latch = true := by
  unfold PortRecord.silenced at write ⊢
  split
  · rfl
  next other => rw [if_neg other] at write; exact absurd write other

/-- Both ports stop acknowledging, whatever the supply monitor takes with it outside RUN. -/
theorem State.Advances.silenced {p : Supply} (run : p.run ≠ .run) :
    s.Advances (State.silencePorts { s with supply := p }) := by
  refine ⟨⟨rfl, fun p => by cases p <;> exact id, id, id, fun p => ?_, fun _ => ⟨fun r => absurd r run, fun p _ => ?_⟩⟩,
    fun _ => ⟨Nat.le_refl _, Nat.le_refl _⟩, fun p => ?_⟩
  · cases p
    · exact (PortRecord.silenced_becomes _).lawful
    · exact (PortRecord.silenced_becomes _).lawful
  · cases p
    · exact PortRecord.silenced_latch
    · exact PortRecord.silenced_latch
  · cases p
    · exact (PortRecord.silenced_becomes _).idle
    · exact (PortRecord.silenced_becomes _).idle

theorem State.Advances.withdrawHold : s.Advances s.withdrawHold := .control s _ _ _ _ _

theorem State.Advances.abandonBatch : s.Advances s.abandonBatch := by
  unfold State.abandonBatch
  split
  · exact .refuseBatch s _
  · exact .refl s

theorem State.Advances.eraseResume : s.Advances s.eraseResume := by
  unfold State.eraseResume
  split
  · exact .refl s
  · exact .eraseGo s

/-- The warning taken where the ports do not acknowledge. -/
theorem State.Advances.setWarning_of_silent {w : Bool} (run : s.supply.run ≠ .run) (fault : s.supply.run ≠ .fault) :
    s.Advances (s.setWarning w) :=
  .withSupply s fun hushed => ⟨fun r => absurd r run, fun p _ => by
    have off : s.acknowledges = false := by simp [State.acknowledges, run, fault]
    cases p
    · exact hushed.2 .M off
    · exact hushed.2 .L off⟩

/-- The warning released where the ports then acknowledge (R162). -/
theorem State.Advances.release {p : Supply} (warning : p.warning = false) (run : p.run = .run ∨ p.run = .fault) :
    s.Advances { s with supply := p } :=
  .withSupply s fun _ => ⟨fun _ => warning, fun x off => by
    rcases run with run | run <;> simp [State.acknowledges, run, warning] at off⟩

theorem execPfwnAssert_advances {t : State} (h : execPfwnAssert s = .next t) : s.Advances t := by
  unfold execPfwnAssert at h
  split at h
  · cases h
    exact .refl s
  · split at h <;> cases h
    next => exact (((State.Advances.silenced s (by simp)).trans (.abandonBatch _)).trans (.withdrawHold _)).trans (.settle _)
    next run => exact .silenced s (by simp [run])
    next run => exact .setWarning_of_silent s (by simp [run]) (by simp [run])
    next run => exact .setWarning_of_silent s (by simp [run]) (by simp [run])
    next run => exact .setWarning_of_silent s (by simp [run]) (by simp [run])

theorem execPfwnRelease_advances {t : State} (h : execPfwnRelease s = .next t) : s.Advances t := by
  have returns : s.Advances (s.setWarning false).returnToRun :=
    ((((State.Advances.release s rfl (.inl rfl)).trans (.checkpointTest _)).trans (.commitStart _)).trans (.eraseResume _)).trans
      (.settle _)
  unfold execPfwnRelease at h
  split at h
  · split at h <;> cases h
    next => exact returns
    next => exact returns
    next run => exact .release s rfl (.inl run)
    next run => exact .release s rfl (.inr run)
    next run => exact .setWarning_of_silent s (by simp [run]) (by simp [run])
  · cases h
    exact .refl s

theorem State.Advances.faultCancel : s.Advances s.faultCancel := by
  unfold State.faultCancel
  split
  · exact .refuse s _ _
  · exact .refl s

theorem State.Advances.faultBatch : s.Advances s.faultBatch := by
  unfold State.faultBatch
  split
  · exact .refuseBatch s _
  · exact .refuseBatch s _
  · exact .withdrawHold s
  · exact .control s _ _ _ _ _
  · exact .refl s

/-- Ports that acknowledge do so still in FAULT, since the warning is then released (R162, R167). -/
theorem hushed_setRun_fault (hushed : s.Hushed) : (s.setRun .fault).Hushed := by
  refine ⟨nofun, fun p off => ?_⟩
  have off' : s.acknowledges = false := by
    have warned : s.supply.warning = true := by simpa [State.acknowledges, State.setRun] using off
    have stopped : s.supply.run ≠ .run := fun run => nomatch (hushed.1 run).symm.trans warned
    simp [State.acknowledges, stopped, warned]
  cases p
  · exact hushed.2 .M off'
  · exact hushed.2 .L off'

theorem State.Advances.enterFault : s.Advances s.enterFault := by
  have entered : s.Advances { s.setRun .fault with journal := s.journal.dropped, time := s.time.faulted } :=
    ((State.Advances.withSupply s (hushed_setRun_fault s)).trans (.withJournal _ Journal.Lawful.dropped)).trans
      (.withTime _ (b := s.time.faulted) (fun lawful => ⟨lawful.1, nofun, nofun⟩) fun _ => ⟨Nat.le_refl _, Nat.le_refl _⟩)
  exact (((entered.trans (State.Advances.foldl State.Advances.faultWait _ _)).trans (.faultBatch _)).trans (.faultCancel _)).trans
    (.settle _)

theorem State.Advances.startupFault : s.Advances s.startupFault := by
  unfold State.startupFault
  have dropped := (State.Advances.markIf s true).trans ((State.Advances.withJournal _ Journal.Lawful.dropped).trans
    (.control _ (s.markIf true).slots (s.markIf true).engine (s.markIf true).arbiter (s.markIf true).renewal none))
  dsimp only
  split
  · exact dropped.trans (.retirement _)
  · exact dropped.trans (.finish _)

theorem State.Keeps.abort (cut : Cut) (pins : Supply) : s.Keeps (s.abort cut pins) where
  pending := rfl
  demands p _ := by
    cases p <;> exact ⟨Nat.zero_le _, .nil, nofun, nofun⟩
  time _ := ⟨Nat.le_refl _, nofun, nofun⟩
  journal lawful := ⟨lawful.cut_canonical cut, Nat.zero_le _, .inl rfl, Nat.zero_lt_succ _, Nat.zero_le _⟩
  ports p _ := by
    have cleared : PortRecord.cleared.Lawful := by simp [PortRecord.Lawful, PortRecord.cleared]
    cases p <;> exact cleared
  hushed _ := ⟨nofun, fun p _ write => by cases p <;> cases write⟩

theorem State.Keeps.beginStartup {pins : Supply} (run : pins.run = s.supply.run) (warning : pins.warning = s.supply.warning) :
    s.Keeps (s.beginStartup pins) := by
  unfold State.beginStartup
  have pinned : s.Keeps { s with supply := pins } := (State.Advances.withSupply_same s run warning).toKeeps
  dsimp only
  split
  · exact (pinned.trans (.startUp _)).trans (State.Advances.settle _).toKeeps
  · exact pinned

/-! ## The writes in service (R144 to R150) -/

theorem storeEffect_lawful (e : Entry) (lawful : s.journal.Lawful) : (s.storeEffect e).Lawful := by
  unfold State.storeEffect
  split
  · exact lawful.appended _ _
  · exact lawful.writeBank _ _ _ _
  · exact lawful.eraseBank _ _

theorem storeEffect_queue (e : Entry) : (s.storeEffect e).queue = s.journal.queue := by
  unfold State.storeEffect
  split <;> rfl

theorem State.Advances.requesterActs (e : Entry) : s.Advances (s.requesterActs e) := by
  unfold State.requesterActs
  split
  · exact .endWait s _
  · split
    · dsimp only
      split
      · exact (State.Advances.takeSequence s _ _).trans (.beginSteps _)
      · exact .takeSequence s _ _
    · exact .refl s
  · split
    · exact .imageWritten s _
    · exact .refl s
  · split
    · exact .handArm s
    · exact .refl s
  · exact .armed s
  · exact .computeCommit s
  · split
    · exact .handEnd s
    · exact .refl s
  · split
    · split
      · exact .rolledForward s _
      · exact .commitEnded s _
    · exact .refl s
  · exact .disarmed s
  · exact .timeWritten s
  · have erased := (State.Advances.eraseDone s).trans (.eraseGo _)
    dsimp only
    split
    · exact erased.trans (.finish _)
    · exact erased

theorem State.Advances.placedActs (e : Entry) : s.Advances (s.placedActs e) := by
  unfold State.placedActs
  split
  · exact .commitPlaced s
  · exact .checkingPlaced s _

theorem State.Advances.completeEntry {e : Entry} {rest : List Entry} (queue : s.journal.queue = e :: rest) :
    s.Advances (s.completeEntry e rest) := by
  have stored : s.Advances { s with journal := Journal.refilled { s.storeEffect e with queue := rest, failures := 0 } } := by
    refine .withJournal s fun lawful => ?_
    have bound := lawful.2.1
    rw [queue, List.length_cons] at bound
    exact Journal.refilled_lawful (storeEffect_lawful s e lawful).1 (by dsimp only; omega) (storeEffect_lawful s e lawful).position
      (Nat.zero_le _)
  unfold State.completeEntry
  dsimp only
  split
  · exact (stored.trans (.requesterActs _ _)).trans (.placedActs _ _)
  · exact stored.trans (.requesterActs _ _)

theorem execWriteComplete_advances {t : State} (h : execWriteComplete s = .next t) : s.Advances t := by
  unfold execWriteComplete at h
  split at h
  · cases h
    exact .refl s
  next queue =>
    split at h <;> cases h
    · exact .refl s
    · exact (State.Advances.completeEntry s queue).trans (.settle _)

theorem execWriteFailure_advances {t : State} (h : execWriteFailure s = .next t) : s.Advances t := by
  unfold execWriteFailure at h
  split at h
  · cases h
    exact .refl s
  next e rest _ =>
    split at h
    · cases h
      refine .withJournal s fun lawful => ?_
      have failed := lawful.firstFailure e.write
      exact ⟨failed.1, failed.2.1, failed.2.2.1, failed.position, Nat.le_refl _⟩
    · have spoiled : s.Advances { s with journal := s.journal.secondFailure e.write } :=
        .withJournal s (j := s.journal.secondFailure e.write) fun lawful => lawful.secondFailure e.write
      dsimp only at h
      split at h
      · exact Host.Outcome.next.inj h ▸ (spoiled.trans (.startupFault _)).trans (.settle _)
      · exact Host.Outcome.next.inj h ▸ spoiled.trans (.enterFault _)

theorem execCarryForward_advances {t : State} (h : execCarryForward s = .next t) : s.Advances t := by
  unfold execCarryForward at h
  split at h
  · split at h <;> cases h
    · exact .withJournal s fun lawful => lawful.copied _
    · exact .refl s
  · cases h
    exact .refl s

end

end Sys2Proof.Machine
end

section
/-! PROOFS. What every event keeps, concluded: the ports (chapter 10), and what one step can do. With it four laws that every step keeps: of
part time, of the demand queues, of the journal and of the ports. -/

namespace Sys2Proof.Machine

/-! ## The port record (R189 to R198) -/

namespace PortRecord

variable {r : PortRecord}

theorem frameComplete_framing (complete : r.frameComplete = true) : r.framing = .write := by
  simp only [frameComplete, Bool.and_eq_true, decide_eq_true_eq] at complete
  exact complete.1.1.1

theorem idled_becomes (open_ : r.framing ≠ .stretch) : r.Becomes r.idled :=
  ⟨fun ⟨count, _, stretch, reply⟩ => ⟨count, by simp [idled], by simpa [idled, open_] using stretch, reply⟩, nofun, fun _ => rfl⟩

theorem taken_becomes (write : r.framing = .write) : r.Becomes r.taken := by
  have idled := idled_becomes (r := r) (by simp [write])
  exact ⟨fun lawful => ⟨(idled.lawful lawful).1, (idled.lawful lawful).2.1, (idled.lawful lawful).2.2.1, fun _ => rfl⟩, nofun,
    fun _ => rfl⟩

theorem discarded_becomes (write : r.framing = .write) : r.Becomes r.discarded := by
  have idled := idled_becomes (r := r) (by simp [write])
  refine ⟨fun lawful => ?_, nofun, fun _ => rfl⟩
  obtain ⟨-, bus, stretch, reply⟩ := idled.lawful lawful
  refine ⟨Nat.zero_le _, bus, stretch, fun flight => ?_⟩
  obtain ⟨q, request⟩ := Option.isSome_iff_exists.mp flight
  have request : r.request = some q := request
  have ready : r.reply = .notReady := reply flight
  simp [discarded, request, ready]

theorem dropped_becomes (write : r.framing = .write) : r.Becomes r.dropped := by
  unfold dropped
  split
  · exact idled_becomes (by simp [write])
  · exact discarded_becomes write

theorem inFlight_becomes (ready : r.reply = .notReady) (q : Request) : r.Becomes { r with request := some q } :=
  ⟨fun ⟨count, bus, stretch, _⟩ => ⟨count, bus, stretch, fun _ => ready⟩, fun write => ⟨write, id⟩, id⟩

/-- A byte of an open frame leaves the frame open, with a byte count of at most 224 (R190). -/
theorem byteIn_becomes (write : r.framing = .write) (b : Byte) : r.Becomes (r.byteIn b) := by
  have opened : (r.byteIn b).framing = .write ∧ (r.byteIn b).busTimer = .running ∧ (r.byteIn b).stretchTimer = r.stretchTimer ∧
      (r.byteIn b).request = r.request ∧ (r.byteIn b).reply = r.reply ∧ (r.latch = true → (r.byteIn b).latch = true) ∧
      (r.byteCount ≤ 224 → (r.byteIn b).byteCount ≤ 224) := by
    unfold byteIn
    dsimp only
    split
    · exact ⟨write, rfl, rfl, rfl, rfl, fun _ => rfl, id⟩
    next clear =>
      have clear (latched : r.latch = true) {q : Prop} : q := absurd latched clear
      split
      · unfold commandByte
        split <;> exact ⟨write, rfl, rfl, rfl, rfl, fun l => clear l, id⟩
      · unfold lengthByte
        split
        · exact ⟨write, rfl, rfl, rfl, rfl, fun l => clear l, id⟩
        next fits => exact ⟨write, rfl, rfl, rfl, rfl, fun l => clear l, fun _ => Nat.le_of_not_lt fits⟩
      · unfold payloadByte
        split
        · exact ⟨write, rfl, rfl, rfl, rfl, fun l => clear l, id⟩
        · exact ⟨write, rfl, rfl, rfl, rfl, fun l => clear l, fun bound => Nat.le_trans (Nat.sub_le _ _) bound⟩
  obtain ⟨framing, bus, stretch, request, reply, latch, count⟩ := opened
  refine ⟨fun ⟨bound, _, stopped, ready⟩ => ⟨count bound, by simp [framing, bus], ?_, by rwa [request, reply]⟩,
    fun _ => ⟨write, latch⟩, fun idle => nomatch write.symm.trans idle⟩
  rw [stretch, stopped, framing, write]

theorem stretchEnded_becomes (stretch : r.framing = .stretch) : r.Becomes r.stretchEnded :=
  ⟨fun ⟨count, _, _, reply⟩ => ⟨count, by simp [stretchEnded], by simp [stretchEnded], reply⟩, nofun,
    fun idle => nomatch stretch.symm.trans idle⟩

/-! ### The port after a START, from IDLE -/

theorem ignoring_lawful (open_ : r.framing ≠ .stretch) (lawful : r.Lawful) : r.started.ignoring.Lawful :=
  (idled_becomes open_).lawful lawful

theorem writing_lawful (open_ : r.framing ≠ .stretch) (lawful : r.Lawful) (addr : BitVec 7) : (r.started.writing addr).Lawful := by
  obtain ⟨-, -, stretch, reply⟩ := lawful
  exact ⟨Nat.zero_le _, by simp [writing], by simpa [writing, started, open_] using stretch, reply⟩

theorem reading_lawful (open_ : r.framing ≠ .stretch) (lawful : r.Lawful) : r.started.reading.Lawful := by
  obtain ⟨count, -, stretch, reply⟩ := lawful
  have stopped : r.stretchTimer ≠ .running := fun running => open_ (stretch.mp running)
  unfold reading
  split
  next st payload served =>
    exact ⟨count, by simp, by simpa [started] using stopped, fun flight => nomatch served.symm.trans (reply flight)⟩
  next served => exact ⟨count, by simp, by simpa [started] using stopped, fun flight => nomatch served.symm.trans (reply flight)⟩
  next served => exact ⟨count, by simp, by simp, fun _ => served⟩

theorem reading_framing (r : PortRecord) : r.reading.framing ≠ .write := by
  unfold reading
  split <;> simp

end PortRecord

section
variable (s : State) (p : Port)

/-! ## The work of each command at its take (R194) -/

theorem State.Advances.frameTaken (write : (s.port p).framing = .write) : s.Advances (s.frameTaken p) :=
  .setPort s p (PortRecord.taken_becomes write)

theorem State.Advances.checked {α : Type} (c : Checked α) {k : α → State} (h : ∀ a, s.Advances (k a)) : s.Advances (s.checked p c k) := by
  unfold State.checked
  split
  · exact .refuse s p _
  · exact h _

theorem State.Advances.handToArbiter (ready : (s.port p).reply = .notReady) (q : Request) : s.Advances (s.handToArbiter p q) :=
  (State.Advances.setPort s p (PortRecord.inFlight_becomes ready q)).trans (.control _ _ _ _ _ _)

theorem State.Advances.batchChecked {k : State → State} (h : ∀ t : State, t.port p = s.port p → t.Advances (k t)) :
    s.Advances (s.batchChecked p k) := by
  unfold State.batchChecked
  split
  · exact .refuse s p _
  split
  · exact .refuse s p _
  split
  · exact .refuse s p _
  split
  · exact (State.Advances.control s _ _ _ _ _).trans (h _ (by cases p <;> rfl))
  · exact h s rfl

theorem State.Advances.openBatch (h : Header) : s.Advances (s.openBatch p h) := by
  unfold State.openBatch
  split
  · exact .refuse s p _
  · exact (State.Advances.control s _ _ _ _ _).trans (.complete _ p _ _)

theorem State.Advances.addStep (x : StepRecord) : s.Advances (s.addStep p x) := by
  unfold State.addStep
  split
  · exact .refuse s p _
  · exact (State.Advances.control s _ _ _ _ _).trans (.complete _ p _ _)

theorem State.Advances.closeBatch (tag : Tag) : s.Advances (s.closeBatch p tag) := by
  unfold State.closeBatch
  split
  · exact .refuse s p _
  split
  · exact .refuse s p _
  · exact ((State.Advances.control s _ _ _ _ _).trans (.complete _ p _ _)).trans (.beginChecking _ _)

theorem State.Advances.setActivation : s.Advances s.setActivation := by
  unfold State.setActivation
  split
  · exact .refl s
  · exact .control s _ _ _ _ _

theorem State.Advances.activateBatch (q : Nat) : s.Advances (s.activateBatch p q) := by
  unfold State.activateBatch
  split
  · exact .refuse s p _
  · exact .refuse s p _
  · split <;> exact .refuse s p _
  · split <;> exact .refuse s p _
  · split
    · exact .refuse s p _
    · exact ((State.Advances.setActivation s).trans (.commitStart _)).trans (.complete _ p _ _)

theorem State.Advances.cancelCommand (ready : (s.port p).reply = .notReady) (q : Nat) : s.Advances (s.cancelCommand p q) := by
  have awaits : s.Advances (s.awaitCancel p q) := .setPort s p (PortRecord.inFlight_becomes ready _)
  unfold State.cancelCommand
  split
  · exact .refuse s p _
  split
  · exact .refuse s p _
  split
  · exact .refuse s p _
  split
  · exact (State.Advances.endBatch s _).trans (.complete _ p _ _)
  split
  · exact awaits.trans (.beginDisarm _)
  · exact awaits

section
variable (ready : (s.port p).reply = .notReady)
include ready

theorem State.Advances.takeMakeTag : s.Advances (s.takeMakeTag p) := .checked s p _ fun _ => .handToArbiter s p ready _
theorem State.Advances.takeCheckTag : s.Advances (s.takeCheckTag p) := .checked s p _ fun _ => .handToArbiter s p ready _
theorem State.Advances.takePin : s.Advances (s.takePin p) := .checked s p _ fun _ => .handToArbiter s p ready _
theorem State.Advances.takeUnpin : s.Advances (s.takeUnpin p) := .checked s p _ fun _ => .handToArbiter s p ready _

theorem State.Advances.takeCancel : s.Advances (s.takeCancel p) :=
  .checked s p _ fun _ => .batchChecked s p fun t same => .cancelCommand t p (same ▸ ready) _

end

theorem State.Advances.takeSlotStatus : s.Advances (s.takeSlotStatus p) := .checked s p _ fun _ => .complete s p _ _

theorem State.Advances.takePartStatus : s.Advances (s.takePartStatus p) := .checked s p _ fun _ => .complete s p _ _

theorem State.Advances.setQueue_tail : s.Advances (s.setQueue p (s.queue p).tail) := by
  cases p
  · exact .withQueues s tail_lawful id
  · exact .withQueues s id tail_lawful

theorem State.Advances.takeReadDemand : s.Advances (s.takeReadDemand p) :=
  .checked s p _ fun _ => (State.Advances.setQueue_tail s p).trans (.complete _ p _ _)

theorem State.Advances.takeBatchOpen : s.Advances (s.takeBatchOpen p) :=
  .checked s p _ fun _ => .batchChecked s p fun t _ => .openBatch t p _

theorem State.Advances.takeBatchStep : s.Advances (s.takeBatchStep p) :=
  .checked s p _ fun _ => .batchChecked s p fun t _ => .addStep t p _

theorem State.Advances.takeBatchClose : s.Advances (s.takeBatchClose p) :=
  .checked s p _ fun _ => .batchChecked s p fun t _ => .closeBatch t p _

theorem State.Advances.takeBatchResult : s.Advances (s.takeBatchResult p) :=
  .checked s p _ fun _ => .batchChecked s p fun t _ => .complete t p _ _

theorem State.Advances.takeActivate : s.Advances (s.takeActivate p) :=
  .checked s p _ fun _ => .batchChecked s p fun t _ => .activateBatch t p _

theorem State.Advances.dealWith (ready : (s.port p).reply = .notReady) (command : Byte) : s.Advances (s.dealWith p command) := by
  unfold State.dealWith
  split
  · exact .takeMakeTag s p ready
  · exact .takeCheckTag s p ready
  · exact .takePin s p ready
  · exact .takeUnpin s p ready
  · exact .takeSlotStatus s p
  · exact .takePartStatus s p
  · exact .takeReadDemand s p
  · exact .takeBatchOpen s p
  · exact .takeBatchStep s p
  · exact .takeBatchClose s p
  · exact .takeBatchResult s p
  · exact .takeActivate s p
  · exact .takeCancel s p ready
  · exact .refuse s p _

/-- A complete frame taken, and its command dealt with at the same event. -/
theorem State.Advances.settle_frameTaken {work : State → State} (complete : (s.port p).frameComplete = true)
    (h : ∀ t : State, (t.port p).reply = .notReady → t.Advances (work t)) : s.Advances (work (s.frameTaken p)).settle :=
  ((State.Advances.frameTaken s p (PortRecord.frameComplete_framing complete)).trans (h _ (by cases p <;> rfl))).trans (.settle _)

theorem State.Advances.atStop (is : Byte → Bool) {work : State → State}
    (h : ∀ t : State, (t.port p).reply = .notReady → t.Advances (work t)) : s.Advances (s.atStop p is work) := by
  unfold State.atStop
  dsimp only
  split
  next taken => exact .settle_frameTaken s p taken.1 h
  next => exact .refl s

/-! ## Transfers (R189 to R198) -/

theorem State.Advances.closeTransfer : s.Advances (s.closeTransfer p) := by
  unfold State.closeTransfer
  dsimp only
  split
  next write =>
    split
    next complete => exact .settle_frameTaken s p complete fun t ready => .dealWith t p ready _
    next => exact .setPort s p (PortRecord.dropped_becomes write)
  next read => exact .setPort s p (PortRecord.idled_becomes (by simp [read]))
  next => exact .refl s
  next => exact .refl s

theorem frameTaken_framing : ((s.frameTaken p).port p).framing = .idle := by cases p <;> rfl

/-- The close of a transfer leaves its port in IDLE. -/
theorem closeTransfer_framing (open_ : (s.port p).framing ≠ .stretch) : ((s.closeTransfer p).port p).framing = .idle := by
  unfold State.closeTransfer
  dsimp only
  split
  · split
    · exact ((State.Advances.dealWith _ p (by cases p <;> rfl) _).trans (.settle _)).idle p (frameTaken_framing s p)
    · rw [State.port_setPort]
      unfold PortRecord.dropped
      split <;> rfl
  · rw [State.port_setPort]
    rfl
  next idle => exact idle
  next stretch => exact absurd stretch open_

/-- The address byte of a START counts for the port in IDLE (R189): a transfer begins only where the ports acknowledge. -/
theorem State.Keeps.addressed (idle : (s.port p).framing = .idle) (own : Prop) [Decidable own] {r : PortRecord}
    (lawful : (s.port p).Lawful → r.Lawful) :
    s.Keeps (s.setPort p (if own ∧ s.acknowledges = true then r else (s.port p).started.ignoring)) := by
  split
  next acknowledged =>
    exact .setPort s p lawful fun _ off => absurd (off.symm.trans acknowledged.2) Bool.false_ne_true
  next => exact .setPort s p (PortRecord.ignoring_lawful (by simp [idle])) nofun

/-- A transfer row closes the open transfer and then writes its own port alone. -/
theorem execTransfer_keeps {t : State} (c : Instr) (addr : BitVec 7) (row : c = .writeTransfer p addr ∨ c = .readTransfer p addr)
    (h : exec c s = .next t) : ∃ u r, s.Advances u ∧ t = u.setPort p r ∧ u.Keeps t := by
  by_cases stretch : (s.port p).framing = .stretch
  · have same : t = s := by
      rcases row with rfl | rfl
      · exact (Host.Outcome.next.inj ((if_pos stretch).symm.trans h)).symm
      · exact (Host.Outcome.next.inj ((if_pos stretch).symm.trans h)).symm
    subst same
    exact ⟨t, t.port p, .refl t, (State.setPort_port t p).symm, (State.Advances.refl t).toKeeps⟩
  · have idle := closeTransfer_framing s p stretch
    rcases row with rfl | rfl
    · obtain rfl := Host.Outcome.next.inj ((if_neg stretch).symm.trans h)
      exact ⟨_, _, .closeTransfer s p, rfl, .addressed _ p idle _ fun lawful => PortRecord.writing_lawful (by simp [idle]) lawful addr⟩
    · obtain rfl := Host.Outcome.next.inj ((if_neg stretch).symm.trans h)
      exact ⟨_, _, .closeTransfer s p, rfl, .addressed _ p idle _ (PortRecord.reading_lawful (by simp [idle]))⟩

end

/-! ## What a step can do -/

/-- The commands that stop the part or start it up again (R168). -/
def resetsPart : Instr → Bool
  | .rstnLow _ | .supplyLoss _ | .rstnRelease _ _ | .supplyReturn _ _ => true
  | _ => false

/-- What a command does: it advances the part; it is a transfer row, which advances it and then writes one port; or it resets it. -/
theorem exec_cases {c : Instr} {s t : State} (h : exec c s = .next t) :
    s.Advances t ∨ (∃ u p r, s.Advances u ∧ t = u.setPort p r ∧ u.Keeps t) ∨ (resetsPart c = true ∧ s.Keeps t) := by
  cases c with
  | readTransfer p addr => exact .inr (.inl (by obtain ⟨u, r, e⟩ := execTransfer_keeps s p _ addr (.inr rfl) h; exact ⟨u, p, r, e⟩))
  | writeTransfer p addr => exact .inr (.inl (by obtain ⟨u, r, e⟩ := execTransfer_keeps s p _ addr (.inl rfl) h; exact ⟨u, p, r, e⟩))
  | rstnLow cut =>
    refine .inr (.inr ⟨rfl, ?_⟩)
    change execRstnLow cut s = _ at h
    unfold execRstnLow at h
    split at h <;> cases h
    · exact (State.Advances.refl _).toKeeps
    · exact .abort s cut _
  | supplyLoss cut =>
    refine .inr (.inr ⟨rfl, ?_⟩)
    change execSupplyLoss cut s = _ at h
    unfold execSupplyLoss at h
    split at h <;> cases h
    · exact .abort s cut _
    · exact (State.Advances.refl _).toKeeps
  | rstnRelease adrM adrL =>
    refine .inr (.inr ⟨rfl, ?_⟩)
    change execRstnRelease adrM adrL s = _ at h
    unfold execRstnRelease at h
    split at h
    · exact Host.Outcome.next.inj h ▸ .beginStartup s rfl rfl
    · exact Host.Outcome.next.inj h ▸ (State.Advances.refl _).toKeeps
  | supplyReturn adrM adrL =>
    refine .inr (.inr ⟨rfl, ?_⟩)
    change execSupplyReturn adrM adrL s = _ at h
    unfold execSupplyReturn at h
    split at h
    · exact Host.Outcome.next.inj h ▸ (State.Advances.refl _).toKeeps
    · exact Host.Outcome.next.inj h ▸ .beginStartup s rfl rfl
  | makeTag p => exact .inl (Host.Outcome.next.inj h ▸ .atStop s p _ fun t ready => .takeMakeTag t p ready)
  | checkTag p => exact .inl (Host.Outcome.next.inj h ▸ .atStop s p _ fun t ready => .takeCheckTag t p ready)
  | pin p => exact .inl (Host.Outcome.next.inj h ▸ .atStop s p _ fun t ready => .takePin t p ready)
  | unpin p => exact .inl (Host.Outcome.next.inj h ▸ .atStop s p _ fun t ready => .takeUnpin t p ready)
  | slotStatus p => exact .inl (Host.Outcome.next.inj h ▸ .atStop s p _ fun t _ => .takeSlotStatus t p)
  | partStatus p => exact .inl (Host.Outcome.next.inj h ▸ .atStop s p _ fun t _ => .takePartStatus t p)
  | readDemand p => exact .inl (Host.Outcome.next.inj h ▸ .atStop s p _ fun t _ => .takeReadDemand t p)
  | batchOpen p => exact .inl (Host.Outcome.next.inj h ▸ .atStop s p _ fun t _ => .takeBatchOpen t p)
  | batchStep p => exact .inl (Host.Outcome.next.inj h ▸ .atStop s p _ fun t _ => .takeBatchStep t p)
  | batchClose p => exact .inl (Host.Outcome.next.inj h ▸ .atStop s p _ fun t _ => .takeBatchClose t p)
  | batchResult p => exact .inl (Host.Outcome.next.inj h ▸ .atStop s p _ fun t _ => .takeBatchResult t p)
  | activate p => exact .inl (Host.Outcome.next.inj h ▸ .atStop s p _ fun t _ => .takeActivate t p)
  | cancel p => exact .inl (Host.Outcome.next.inj h ▸ .atStop s p _ fun t ready => .takeCancel t p ready)
  | unknownCommand p => exact .inl (Host.Outcome.next.inj h ▸ .atStop s p _ fun t _ => .refuse t p _)
  | frameDiscard p =>
    refine .inl ?_
    change execFrameDiscard p s = _ at h
    unfold execFrameDiscard at h
    dsimp only at h
    split at h
    next write =>
      split at h <;> cases h
      · exact .refl _
      · exact .setPort s p (PortRecord.dropped_becomes write)
    next read => exact Host.Outcome.next.inj h ▸ .setPort s p (PortRecord.idled_becomes (by simp [read]))
    next => exact Host.Outcome.next.inj h ▸ .refl s
    next => exact Host.Outcome.next.inj h ▸ .refl s
  | stretchTimeout p =>
    refine .inl ?_
    change execStretchTimeout p s = _ at h
    unfold execStretchTimeout at h
    split at h <;> cases h
    next stretch => exact .setPort s p (PortRecord.stretchEnded_becomes stretch)
    next => exact .refl _
  | busTimeout p =>
    refine .inl ?_
    change execBusTimeout p s = _ at h
    unfold execBusTimeout at h
    dsimp only at h
    split at h
    next write => exact Host.Outcome.next.inj h ▸ .setPort s p (PortRecord.dropped_becomes write)
    next read => exact Host.Outcome.next.inj h ▸ .setPort s p (PortRecord.idled_becomes (by simp [read]))
    next => exact Host.Outcome.next.inj h ▸ .refl s
    next => exact Host.Outcome.next.inj h ▸ .refl s
  | writeByte p b =>
    refine .inl ?_
    change execWriteByte p b s = _ at h
    unfold execWriteByte at h
    split at h <;> cases h
    next write => exact .setPort s p (PortRecord.byteIn_becomes write b)
    next => exact .refl _
  | issue =>
    refine .inl ?_
    change execIssue s = _ at h
    unfold execIssue at h
    split at h
    · exact Host.Outcome.next.inj h ▸ ((State.Advances.control s _ _ _ _ _).trans (.complete _ _ _ _)).trans (.settle _)
    · exact Host.Outcome.next.inj h ▸ .refl s
  | tagComparison =>
    refine .inl ?_
    change execTagComparison s = _ at h
    unfold execTagComparison at h
    split at h
    · exact Host.Outcome.next.inj h ▸ ((State.Advances.control s _ _ _ _ _).trans (.compareTag _ _ _ _ _ _ _ _ _)).trans (.settle _)
    · exact Host.Outcome.next.inj h ▸ .refl s
  | authenticatorCheck =>
    refine .inl ?_
    change execAuthenticatorCheck s = _ at h
    unfold execAuthenticatorCheck at h
    have free := State.Advances.control s s.slots none s.arbiter s.renewal s.commit
    split at h
    · dsimp only at h
      split at h
      · exact Host.Outcome.next.inj h ▸ (free.trans (.authenticated _ _ _)).trans (.settle _)
      · exact Host.Outcome.next.inj h ▸ free.trans (.settle _)
    · exact Host.Outcome.next.inj h ▸ .refl s
  | unwrap =>
    refine .inl ?_
    change execUnwrap s = _ at h
    unfold execUnwrap at h
    have free := State.Advances.control s s.slots none s.arbiter s.renewal s.commit
    split at h
    · dsimp only at h
      split at h
      · exact Host.Outcome.next.inj h ▸ (free.trans (.takeUnwrap _ _ _ _ _)).trans (.settle _)
      · exact Host.Outcome.next.inj h ▸ free.trans (.settle _)
    · exact Host.Outcome.next.inj h ▸ .refl s
  | tick =>
    refine .inl ?_
    change execTick s = _ at h
    unfold execTick at h
    split at h
    · exact Host.Outcome.next.inj h ▸ .refl s
    split at h
    · exact Host.Outcome.next.inj h ▸ .refl s
    split at h
    · exact Host.Outcome.next.inj h ▸ .refl s
    split at h
    next below =>
      refine Host.Outcome.next.inj h ▸ State.Advances.trans ?_ (.settle _)
      exact .advanceT_of s (b := s.time) (fun lawful => ⟨below, lawful.2⟩) fun _ => ⟨Nat.le_succ _, Nat.le_refl _⟩
    split at h
    next flight =>
      exact Host.Outcome.next.inj h ▸ .withTime s (fun lawful => ⟨lawful.1, lawful.2.1, fun _ => flight⟩) fun _ => ⟨Nat.le_refl _, Nat.le_refl _⟩
    next => exact Host.Outcome.next.inj h ▸ .refl s
  | secondBeat => exact .inl (Host.Outcome.next.inj h ▸ (State.Advances.beat s).trans (.windowExpiry _))
  | stagingWindowExpiry => exact .inl (Host.Outcome.next.inj h ▸ .windowExpiry s)
  | lifeWarning slot => exact .inl (Host.Outcome.next.inj h ▸ .slotEvent s slot (.lifeWarning s))
  | expiry slot => exact .inl (Host.Outcome.next.inj h ▸ .slotEvent s slot (.expire s))
  | graceEnd slot => exact .inl (Host.Outcome.next.inj h ▸ .slotEvent s slot (.endGrace s))
  | pinLapse slot => exact .inl (Host.Outcome.next.inj h ▸ (State.Advances.slotEvent s slot (.lapsePin s)).trans (.settle _))
  | scheduledActivation => exact .inl (Host.Outcome.next.inj h ▸ (State.Advances.scheduledActivation s).trans (.settle _))
  | writeComplete => exact .inl (execWriteComplete_advances s h)
  | writeFailure => exact .inl (execWriteFailure_advances s h)
  | carryForward => exact .inl (execCarryForward_advances s h)
  | pfwnAssert => exact .inl (execPfwnAssert_advances s h)
  | pfwnRelease => exact .inl (execPfwnRelease_advances s h)

theorem resetsPart_iff {c : Instr} : resetsPart c = true ↔
    (∃ cut, c = .rstnLow cut ∨ c = .supplyLoss cut) ∨ ∃ a b, c = .rstnRelease a b ∨ c = .supplyReturn a b := by
  cases c <;> simp [resetsPart]

theorem exec_keeps {c : Instr} {s t : State} (h : exec c s = .next t) : s.Keeps t := by
  obtain advances | ⟨u, p, r, advances, -, keeps⟩ | ⟨-, keeps⟩ := exec_cases h
  · exact advances.toKeeps
  · exact advances.toKeeps.trans keeps
  · exact keeps

/-- T and Tb fall through an abort or the start-up after it alone (R124, R127, R129). -/
theorem exec_rises {c : Instr} {s t : State} (h : exec c s = .next t) (stays : resetsPart c = false) (lawful : s.time.Lawful) :
    s.time.t ≤ t.time.t ∧ s.time.tb ≤ t.time.tb := by
  obtain advances | ⟨u, p, r, advances, rfl, -⟩ | ⟨resets, -⟩ := exec_cases h
  · exact advances.rises lawful
  · rw [State.setPort_time]
    exact advances.rises lawful
  · exact absurd (stays.symm.trans resets) Bool.false_ne_true

/-! ## The step -/

/-- A step idles, or runs the front command on the state with the rest of the queue. -/
theorem step_cases {s t : State} (h : step s = .next t) :
    t = s ∨ ∃ c rest, s.pending = c :: rest ∧ exec c (s.withPending rest) = .next t := by
  unfold step at h
  split at h
  · exact .inl (Host.Outcome.next.inj h).symm
  next c rest pending => exact .inr ⟨c, rest, pending, h⟩

/-- A reading of the state that every command keeps is kept by every step, where the queue of commands is no part of it. -/
theorem step_keeps {s t : State} (h : step s = .next t) {P : State → Prop} (command : ∀ c u, P u → exec c u = .next t → P t)
    (queue : ∀ rest, P s → P (s.withPending rest)) : P s → P t := by
  obtain rfl | ⟨c, rest, -, run⟩ := step_cases h
  · exact id
  · exact fun holds => command c _ (queue rest holds) run

/-- Settles O57. -/
theorem journalLawIsKept : Obligations.JournalLawIsKept := fun _ _ lawful h =>
  step_keeps h (P := fun s => s.journal.Lawful) (fun _ _ lawful run => (exec_keeps run).journal lawful) (fun _ => id) lawful

/-- Settles O31. -/
theorem demandLawIsKept : Obligations.DemandLawIsKept := fun _ _ lawful h =>
  step_keeps h (P := State.DemandsLawful) (fun _ _ lawful run => ⟨(exec_keeps run).demands .M lawful.1, (exec_keeps run).demands .L lawful.2⟩)
    (fun _ => id) lawful

/-- Settles O58. -/
theorem portLawIsKept : Obligations.PortLawIsKept := fun _ _ lawful h =>
  step_keeps h (P := State.PortsLawful) (fun _ _ lawful run => ⟨(exec_keeps run).ports .M lawful.1, (exec_keeps run).ports .L lawful.2⟩)
    (fun _ => id) lawful

/-- Settles O10: the law by `exec_keeps`, and that neither value falls by `exec_rises`, since the front command is none that resets. -/
theorem partTimeLawIsKept : Obligations.PartTimeLawIsKept := by
  intro s t lawful h
  refine ⟨step_keeps h (P := fun s => s.time.Lawful) (fun _ _ lawful run => (exec_keeps run).time lawful) (fun _ => id) lawful,
    fun noAbort noStart => ?_⟩
  obtain rfl | ⟨c, rest, front, run⟩ := step_cases h
  · exact ⟨Nat.le_refl _, Nat.le_refl _⟩
  · rw [front] at noAbort noStart
    refine exec_rises (s := s.withPending rest) run (Bool.eq_false_iff.mpr fun resets => ?_) lawful
    obtain ⟨cut, rfl | rfl⟩ | ⟨a, b, rfl | rfl⟩ := resetsPart_iff.mp resets
    · exact (noAbort cut).1 rfl
    · exact (noAbort cut).2 rfl
    · exact (noStart a b).1 rfl
    · exact (noStart a b).2 rfl

end Sys2Proof.Machine
end

section
/-! PROOFS. The law of an event's end: the grants of an event leave none to make (R64), and the events that make no grants add none. Every
command answers a next state. -/

namespace Sys2Proof.Machine

/-! ## The grants of an event come to an end (R64) -/

/-- The steps from a hold not requested to the hold granted. -/
def Hold.ahead : Hold → Nat
  | .none => 2
  | .requested => 1
  | .granted => 0

/-- How many grants an arbiter can still make: its requesters, with the steps of the table hold. -/
def Arbiter.work (a : Arbiter) : Nat :=
  a.resumed.length + a.hold.ahead + a.waitM.toNat + a.waitL.toNat + a.checking.isSome.toNat

theorem Arbiter.work_le (a : Arbiter) : a.work ≤ a.resumed.length + 6 := by
  have hold : a.hold.ahead ≤ 2 := by cases a.hold <;> simp [Hold.ahead]
  have m := Bool.toNat_le a.waitM
  have l := Bool.toNat_le a.waitL
  have c := Bool.toNat_le a.checking.isSome
  unfold Arbiter.work
  omega

section
variable (s : State) (p : Port)

theorem commitStart_work : s.commitStart.arbiter.work ≤ s.arbiter.work := by
  unfold State.commitStart
  split
  next due =>
    obtain ⟨-, -, -, -, -, hold⟩ := due
    simp only [Arbiter.work, hold, Hold.ahead]
    omega
  next => exact Nat.le_refl _

theorem beginWait_arbiter (i : Fin 24) (r : WaitRecord) : (s.beginWait i p r).arbiter = s.arbiter := by
  unfold State.beginWait
  split <;> simp

theorem issueStep_arbiter (i : Fin 24) (c : Current) : (s.issueStep p i c).arbiter = s.arbiter := by
  unfold State.issueStep
  split
  · split
    · have same (c' : Slot) : s.SameBesides i (((s.setSlot i c').evaluateLow i).evaluateSpent i) :=
        (State.SameBesides.setSlot s i c').trans
          ((State.evaluateLow_sameBesides _ i).trans (State.evaluateSpent_sameBesides _ i))
      obtain ⟨-, -, arbiter, -⟩ := (same _).frame
      exact arbiter
    · exact beginWait_arbiter s p i _
  · rfl

/-- What an operation does at its grant leaves the arbiter alone, but for the commit start test of an UNPIN. -/
theorem enter_work : (s.enter p).arbiter.work ≤ s.arbiter.work := by
  unfold State.enter
  split
  · unfold State.enterMakeTag
    split
    · simp
    · split
      · exact Nat.le_refl _
      · exact Nat.le_of_eq (congrArg Arbiter.work (issueStep_arbiter ..))
  · unfold State.enterCheckTag
    split
    · simp
    · split
      · exact Nat.le_refl _
      · split
        · simp
        · split
          · simp
          · exact Nat.le_refl _
  · unfold State.enterPin
    split
    · simp
    · split <;> simp
  · unfold State.enterUnpin
    split
    · simp
    · exact Nat.le_trans (commitStart_work _) (by simp)
  · exact Nat.le_refl _
  · exact Nat.le_refl _

theorem grantResumed_work (r : Resumed) : (s.grantResumed r).arbiter.work ≤ s.arbiter.work := by
  unfold State.grantResumed
  split
  · simp
  · exact enter_work s _

theorem nextPort_waiting {a : Arbiter} {p : Port} (next : a.nextPort = some p) : a.waiting p = true := by
  cases m : a.waitM <;> cases l : a.waitL <;> cases t : a.turn <;> simp [Arbiter.nextPort, m, l, t, Port.other] at next <;>
    subst next <;> assumption

/-- A port's request that is granted is one requester fewer. -/
theorem setWaiting_work {a : Arbiter} {p : Port} (waits : a.waiting p = true) : (a.setWaiting p false).work + 1 = a.work := by
  cases p <;> simp only [Arbiter.waiting] at waits <;> simp only [Arbiter.work, Arbiter.setWaiting, waits, Bool.toNat_true, Bool.toNat_false] <;>
    omega

theorem grantPort_work (waits : s.arbiter.waiting p = true) : (s.grantPort p).arbiter.work < s.arbiter.work := by
  have fewer := setWaiting_work waits
  exact Nat.lt_of_le_of_lt (enter_work _ p) (by rw [← fewer]; exact Nat.lt_succ_self _)

theorem grantChecking_work {c : CheckInput} (checking : s.arbiter.checking = some c) :
    (s.grantChecking c).arbiter.work < s.arbiter.work := by
  simp only [State.grantChecking, Arbiter.work, checking, Option.isSome_some, Option.isSome_none, Bool.toNat_true, Bool.toNat_false]
  omega

/-- Every grant takes a requester away. -/
theorem grant_work {t : State} (granted : s.grant = some t) : t.arbiter.work < s.arbiter.work := by
  unfold State.grant at granted
  split at granted
  · cases granted
  split at granted
  next r rest resumed =>
    cases granted
    refine Nat.lt_of_le_of_lt (grantResumed_work _ r) ?_
    simp only [Arbiter.work, resumed, List.length_cons]
    omega
  split at granted
  next hold =>
    cases granted
    simp only [State.grantHold, State.handOver_arbiter, Arbiter.work, hold.1, Hold.ahead]
    omega
  split at granted
  next c _ checking _ => exact Option.some.inj granted ▸ grantChecking_work s checking
  split at granted
  next _ p next _ => exact Option.some.inj granted ▸ grantPort_work s p (nextPort_waiting next)
  split at granted
  next c checking => exact Option.some.inj granted ▸ grantChecking_work s checking
  · cases granted

/-- As many grants as the arbiter has work leave none to make. -/
theorem grants_grant_none (n : Nat) (enough : s.arbiter.work ≤ n) : (State.grants n s).grant = none := by
  induction n generalizing s with
  | zero =>
    refine grant_none_of_hold ?_
    simp only [Arbiter.work] at enough
    cases hold : s.arbiter.hold <;> simp [State.grants, hold, Hold.ahead] at enough ⊢
  | succ n ih =>
    rw [State.grants]
    split
    next t granted => exact ih t (by have := grant_work s granted; omega)
    next none => exact none

/-- The end of an event leaves no grant to make (R64). -/
theorem settle_grant_none : s.settle.grant = none := by
  have none := (grant_eq_none_iff _).mp (grants_grant_none s _ s.arbiter.work_le)
  refine (grant_eq_none_iff _).mpr ?_
  have charge (x : Port) : (s.settle).inCharge x = (State.grants (s.arbiter.resumed.length + 6) s).inCharge x := by
    cases x <;> simp [State.settle, State.inCharge, State.port]
  rw [charge, charge, State.settle, State.drain_engine, State.drain_arbiter]
  exact none

end

/-! ## Events that make no grants -/

/-- `t` has no requester that `s` has not, and no less to keep them waiting. -/
structure State.AddsNoRequester (s t : State) : Prop where
  engine : t.engine.isSome = s.engine.isSome
  resumed : t.arbiter.resumed = s.arbiter.resumed
  hold : t.arbiter.hold = s.arbiter.hold
  waitM : t.arbiter.waitM = s.arbiter.waitM
  waitL : t.arbiter.waitL = s.arbiter.waitL
  checking : s.arbiter.checking = none → t.arbiter.checking = none
  charge : ∀ x, t.inCharge x = s.inCharge x

namespace State.AddsNoRequester

variable {s t : State}

theorem refl (s : State) : s.AddsNoRequester s := ⟨rfl, rfl, rfl, rfl, rfl, id, fun _ => rfl⟩

theorem grant_none (same : s.AddsNoRequester t) (quiet : s.grant = none) : t.grant = none := by
  obtain ⟨engine, resumed, hold, waitM, waitL, checking, charge⟩ := same
  have next : t.arbiter.nextPort = .none ↔ s.arbiter.nextPort = .none := by
    simp only [Arbiter.nextPort, waitM, waitL]
    cases s.arbiter.waitM <;> cases s.arbiter.waitL <;> simp
  refine (grant_eq_none_iff t).mpr (((grant_eq_none_iff s).mp quiet).imp (engine ▸ id) (Or.imp (hold ▸ id) ?_))
  rw [resumed, hold, charge, charge, next]
  exact fun ⟨a, b, c, d⟩ => ⟨a, b, checking c, d⟩

/-- The journal, the time base, the slots, the demand queues and the supply monitor have no part in the grants. -/
theorem outside (s : State) (sl : Vector Slot 24) (b : TimeBase) (j : Journal) (su : Supply) (m l : List Demand) :
    s.AddsNoRequester { s with slots := sl, time := b, journal := j, supply := su, queueM := m, queueL := l } :=
  ⟨rfl, rfl, rfl, rfl, rfl, id, fun x => by cases x <;> rfl⟩

theorem of_sameBesides {i : Fin 24} (same : s.SameBesides i t) : s.AddsNoRequester t := by
  obtain ⟨c, m, l, rfl⟩ := same
  exact outside s _ _ _ _ _ _

/-- A port's record replaced by one with the same request. -/
theorem setPort (s : State) (p : Port) {r : PortRecord} (request : r.request = (s.port p).request) : s.AddsNoRequester (s.setPort p r) := by
  refine ⟨by simp, by simp, by simp, by simp, by simp, by simp, fun x => ?_⟩
  cases p <;> cases x <;> simp only [State.inCharge, State.setPort, State.port] at request ⊢ <;> rw [request]

theorem silencePorts (s : State) (su : Supply) : s.AddsNoRequester (State.silencePorts { s with supply := su }) := by
  have request (r : PortRecord) : r.silenced.request = r.request := by unfold PortRecord.silenced; split <;> rfl
  refine ⟨rfl, rfl, rfl, rfl, rfl, id, fun x => ?_⟩
  cases x <;> simp only [State.inCharge, State.silencePorts, State.port, request]

theorem refuseBatch (s : State) (reason : BatchReason) : s.AddsNoRequester (s.refuseBatch reason) := by
  obtain ⟨v, -, e⟩ := refuseBatch_eq s reason
  rw [e]
  exact ⟨Option.isSome_map .., rfl, rfl, rfl, rfl, fun _ => rfl, fun x => by cases x <;> rfl⟩

theorem windowExpiry (s : State) : s.AddsNoRequester s.windowExpiry := by
  unfold State.windowExpiry
  split
  · exact refuseBatch s _
  · exact refl s

theorem beat_windowExpiry (s : State) : s.AddsNoRequester s.beat.windowExpiry := by
  unfold State.beat
  split
  · have expired := windowExpiry { s with renewal := { s.renewal with windowCount := s.renewal.windowCount + 1 } }
    obtain ⟨engine, resumed, hold, waitM, waitL, checking, charge⟩ := expired
    exact ⟨engine, resumed, hold, waitM, waitL, checking, fun x => (charge x).trans (by cases x <;> rfl)⟩
  · exact windowExpiry s

theorem slotEvent (s : State) (slot : Nat) {f : Fin 24 → State} (same : ∀ i, s.SameBesides i (f i)) :
    s.AddsNoRequester (s.slotEvent slot f) := by
  unfold State.slotEvent
  split
  · split
    · exact of_sameBesides (same _)
    · exact refl s
  · exact refl s

end State.AddsNoRequester

/-! ## What every command leaves to grant -/

theorem PortRecord.dropped_request (r : PortRecord) : r.dropped.request = r.request := by
  unfold PortRecord.dropped; split <;> rfl

theorem PortRecord.byteIn_request (r : PortRecord) (b : Byte) : (r.byteIn b).request = r.request := by
  unfold PortRecord.byteIn
  dsimp only
  split
  · rfl
  · split
    · unfold PortRecord.commandByte; split <;> rfl
    · unfold PortRecord.lengthByte; split <;> rfl
    · unfold PortRecord.payloadByte; split <;> rfl

theorem PortRecord.reading_request (r : PortRecord) : r.reading.request = r.request := by
  unfold PortRecord.reading; split <;> rfl

section
variable {s t : State}

theorem atStop_grant_none (quiet : s.grant = none) (p : Port) (is : Byte → Bool) (work : State → State) :
    (s.atStop p is work).grant = none := by
  unfold State.atStop
  dsimp only
  split
  · exact settle_grant_none _
  · exact quiet

theorem closeTransfer_grant_none (quiet : s.grant = none) (p : Port) : (s.closeTransfer p).grant = none := by
  unfold State.closeTransfer
  dsimp only
  split
  · split
    · exact settle_grant_none _
    · exact (State.AddsNoRequester.setPort s p (PortRecord.dropped_request _)).grant_none quiet
  · exact (State.AddsNoRequester.setPort s p (by rfl)).grant_none quiet
  · exact quiet
  · exact quiet

/-- A transfer row closes the open transfer, and then changes no request. -/
theorem addressed_grant_none (quiet : s.grant = none) (p : Port) (own : Prop) [Decidable own] {r : PortRecord}
    (request : r.request = (s.port p).request) :
    (s.setPort p (if own then r else (s.port p).started.ignoring)).grant = none := by
  refine (State.AddsNoRequester.setPort s p ?_).grant_none quiet
  split
  · exact request
  · rfl

theorem abort_grant_none (s : State) (cut : Cut) (pins : Supply) : (s.abort cut pins).grant = none :=
  grant_none_of_no_requester rfl rfl rfl rfl rfl

theorem beginStartup_grant_none (quiet : s.grant = none) (pins : Supply) : (s.beginStartup pins).grant = none := by
  unfold State.beginStartup
  dsimp only
  split
  · exact settle_grant_none _
  · exact (State.AddsNoRequester.outside s _ _ _ _ _ _).grant_none quiet

theorem execPfwnAssert_grant_none (quiet : s.grant = none) (h : execPfwnAssert s = .next t) : t.grant = none := by
  have kept (p : Supply) : ({ s with supply := p } : State).grant = none :=
    (State.AddsNoRequester.outside s _ _ _ p _ _).grant_none quiet
  unfold execPfwnAssert at h
  split at h
  · exact Host.Outcome.next.inj h ▸ quiet
  split at h <;> refine Host.Outcome.next.inj h ▸ ?_
  · exact settle_grant_none _
  · exact (State.AddsNoRequester.silencePorts s _).grant_none quiet
  · exact kept _
  · exact kept _
  · exact kept _

theorem execPfwnRelease_grant_none (quiet : s.grant = none) (h : execPfwnRelease s = .next t) : t.grant = none := by
  have kept (p : Supply) : ({ s with supply := p } : State).grant = none :=
    (State.AddsNoRequester.outside s _ _ _ p _ _).grant_none quiet
  unfold execPfwnRelease at h
  split at h
  · split at h <;> refine Host.Outcome.next.inj h ▸ ?_
    · exact settle_grant_none _
    · exact settle_grant_none _
    · exact kept _
    · exact kept _
    · exact kept _
  · exact Host.Outcome.next.inj h ▸ quiet

theorem execTick_grant_none (quiet : s.grant = none) (h : execTick s = .next t) : t.grant = none := by
  unfold execTick at h
  split at h
  · exact Host.Outcome.next.inj h ▸ quiet
  split at h
  · exact Host.Outcome.next.inj h ▸ quiet
  split at h
  · exact Host.Outcome.next.inj h ▸ quiet
  split at h
  · exact Host.Outcome.next.inj h ▸ settle_grant_none _
  split at h
  · exact Host.Outcome.next.inj h ▸ (State.AddsNoRequester.outside s _ _ _ _ _ _).grant_none quiet
  · exact Host.Outcome.next.inj h ▸ quiet

theorem execWriteComplete_grant_none (quiet : s.grant = none) (h : execWriteComplete s = .next t) : t.grant = none := by
  unfold execWriteComplete at h
  split at h
  · exact Host.Outcome.next.inj h ▸ quiet
  split at h
  · exact Host.Outcome.next.inj h ▸ quiet
  · exact Host.Outcome.next.inj h ▸ settle_grant_none _

theorem execWriteFailure_grant_none (quiet : s.grant = none) (h : execWriteFailure s = .next t) : t.grant = none := by
  unfold execWriteFailure at h
  split at h
  · exact Host.Outcome.next.inj h ▸ quiet
  split at h
  · exact Host.Outcome.next.inj h ▸ (State.AddsNoRequester.outside s _ _ _ _ _ _).grant_none quiet
  dsimp only at h
  split at h
  · exact Host.Outcome.next.inj h ▸ settle_grant_none _
  · exact Host.Outcome.next.inj h ▸ settle_grant_none _

theorem execCarryForward_grant_none (quiet : s.grant = none) (h : execCarryForward s = .next t) : t.grant = none := by
  unfold execCarryForward at h
  split at h
  · split at h
    · exact Host.Outcome.next.inj h ▸ (State.AddsNoRequester.outside s _ _ _ _ _ _).grant_none quiet
    · exact Host.Outcome.next.inj h ▸ quiet
  · exact Host.Outcome.next.inj h ▸ quiet

/-- A command that finds no grant to make leaves none: it ends with the grants of its event, or adds no requester. -/
theorem exec_grant_none {c : Instr} (quiet : s.grant = none) (h : exec c s = .next t) : t.grant = none := by
  have port (p : Port) {r : PortRecord} (request : r.request = (s.port p).request) : (s.setPort p r).grant = none :=
    (State.AddsNoRequester.setPort s p request).grant_none quiet
  cases c with
  | readTransfer p addr =>
    change execReadTransfer p addr s = _ at h
    unfold execReadTransfer at h
    split at h
    · exact Host.Outcome.next.inj h ▸ quiet
    · exact Host.Outcome.next.inj h ▸ addressed_grant_none (closeTransfer_grant_none quiet p) p _ (PortRecord.reading_request _)
  | writeTransfer p addr =>
    change execWriteTransfer p addr s = _ at h
    unfold execWriteTransfer at h
    split at h
    · exact Host.Outcome.next.inj h ▸ quiet
    · exact Host.Outcome.next.inj h ▸ addressed_grant_none (closeTransfer_grant_none quiet p) p _ rfl
  | rstnLow cut =>
    change execRstnLow cut s = _ at h
    unfold execRstnLow at h
    split at h
    · exact Host.Outcome.next.inj h ▸ quiet
    · exact Host.Outcome.next.inj h ▸ abort_grant_none s cut _
  | supplyLoss cut =>
    change execSupplyLoss cut s = _ at h
    unfold execSupplyLoss at h
    split at h
    · exact Host.Outcome.next.inj h ▸ abort_grant_none s cut _
    · exact Host.Outcome.next.inj h ▸ quiet
  | rstnRelease adrM adrL =>
    change execRstnRelease adrM adrL s = _ at h
    unfold execRstnRelease at h
    split at h
    · exact Host.Outcome.next.inj h ▸ beginStartup_grant_none quiet _
    · exact Host.Outcome.next.inj h ▸ quiet
  | supplyReturn adrM adrL =>
    change execSupplyReturn adrM adrL s = _ at h
    unfold execSupplyReturn at h
    split at h
    · exact Host.Outcome.next.inj h ▸ quiet
    · exact Host.Outcome.next.inj h ▸ beginStartup_grant_none quiet _
  | makeTag p => exact Host.Outcome.next.inj h ▸ atStop_grant_none quiet p _ _
  | checkTag p => exact Host.Outcome.next.inj h ▸ atStop_grant_none quiet p _ _
  | pin p => exact Host.Outcome.next.inj h ▸ atStop_grant_none quiet p _ _
  | unpin p => exact Host.Outcome.next.inj h ▸ atStop_grant_none quiet p _ _
  | slotStatus p => exact Host.Outcome.next.inj h ▸ atStop_grant_none quiet p _ _
  | partStatus p => exact Host.Outcome.next.inj h ▸ atStop_grant_none quiet p _ _
  | readDemand p => exact Host.Outcome.next.inj h ▸ atStop_grant_none quiet p _ _
  | batchOpen p => exact Host.Outcome.next.inj h ▸ atStop_grant_none quiet p _ _
  | batchStep p => exact Host.Outcome.next.inj h ▸ atStop_grant_none quiet p _ _
  | batchClose p => exact Host.Outcome.next.inj h ▸ atStop_grant_none quiet p _ _
  | batchResult p => exact Host.Outcome.next.inj h ▸ atStop_grant_none quiet p _ _
  | activate p => exact Host.Outcome.next.inj h ▸ atStop_grant_none quiet p _ _
  | cancel p => exact Host.Outcome.next.inj h ▸ atStop_grant_none quiet p _ _
  | unknownCommand p => exact Host.Outcome.next.inj h ▸ atStop_grant_none quiet p _ _
  | frameDiscard p =>
    change execFrameDiscard p s = _ at h
    unfold execFrameDiscard at h
    dsimp only at h
    split at h
    · split at h
      · exact Host.Outcome.next.inj h ▸ quiet
      · exact Host.Outcome.next.inj h ▸ port p (PortRecord.dropped_request _)
    · exact Host.Outcome.next.inj h ▸ port p rfl
    · exact Host.Outcome.next.inj h ▸ quiet
    · exact Host.Outcome.next.inj h ▸ quiet
  | stretchTimeout p =>
    change execStretchTimeout p s = _ at h
    unfold execStretchTimeout at h
    split at h
    · exact Host.Outcome.next.inj h ▸ port p rfl
    · exact Host.Outcome.next.inj h ▸ quiet
  | busTimeout p =>
    change execBusTimeout p s = _ at h
    unfold execBusTimeout at h
    dsimp only at h
    split at h
    · exact Host.Outcome.next.inj h ▸ port p (PortRecord.dropped_request _)
    · exact Host.Outcome.next.inj h ▸ port p rfl
    · exact Host.Outcome.next.inj h ▸ quiet
    · exact Host.Outcome.next.inj h ▸ quiet
  | writeByte p b =>
    change execWriteByte p b s = _ at h
    unfold execWriteByte at h
    split at h
    · exact Host.Outcome.next.inj h ▸ port p (PortRecord.byteIn_request _ b)
    · exact Host.Outcome.next.inj h ▸ quiet
  | issue =>
    change execIssue s = _ at h
    unfold execIssue at h
    split at h
    · exact Host.Outcome.next.inj h ▸ settle_grant_none _
    · exact Host.Outcome.next.inj h ▸ quiet
  | tagComparison =>
    change execTagComparison s = _ at h
    unfold execTagComparison at h
    split at h
    · exact Host.Outcome.next.inj h ▸ settle_grant_none _
    · exact Host.Outcome.next.inj h ▸ quiet
  | authenticatorCheck =>
    change execAuthenticatorCheck s = _ at h
    unfold execAuthenticatorCheck at h
    split at h
    · exact Host.Outcome.next.inj h ▸ settle_grant_none _
    · exact Host.Outcome.next.inj h ▸ quiet
  | unwrap =>
    change execUnwrap s = _ at h
    unfold execUnwrap at h
    split at h
    · exact Host.Outcome.next.inj h ▸ settle_grant_none _
    · exact Host.Outcome.next.inj h ▸ quiet
  | tick => exact execTick_grant_none quiet h
  | secondBeat => exact Host.Outcome.next.inj h ▸ (State.AddsNoRequester.beat_windowExpiry s).grant_none quiet
  | stagingWindowExpiry => exact Host.Outcome.next.inj h ▸ (State.AddsNoRequester.windowExpiry s).grant_none quiet
  | lifeWarning slot =>
    exact Host.Outcome.next.inj h ▸ (State.AddsNoRequester.slotEvent s slot s.lifeWarning_sameBesides).grant_none quiet
  | expiry slot => exact Host.Outcome.next.inj h ▸ (State.AddsNoRequester.slotEvent s slot s.expire_sameBesides).grant_none quiet
  | graceEnd slot => exact Host.Outcome.next.inj h ▸ (State.AddsNoRequester.slotEvent s slot s.endGrace_sameBesides).grant_none quiet
  | pinLapse slot => exact Host.Outcome.next.inj h ▸ settle_grant_none _
  | scheduledActivation => exact Host.Outcome.next.inj h ▸ settle_grant_none _
  | writeComplete => exact execWriteComplete_grant_none quiet h
  | writeFailure => exact execWriteFailure_grant_none quiet h
  | carryForward => exact execCarryForward_grant_none quiet h
  | pfwnAssert => exact execPfwnAssert_grant_none quiet h
  | pfwnRelease => exact execPfwnRelease_grant_none quiet h

end

/-- Settles O59: no grant is left by `exec_grant_none`, the rest of the law is `State.Hushed`. A part with a complete frame open
acknowledges, so it is not in FLUSH. -/
theorem quietLawIsKept : Obligations.QuietLawIsKept := by
  refine ⟨fun s t lawful h => ?_, fun s p code ⟨quiet, hushed⟩ holds => ⟨quiet, fun flush => ?_⟩⟩
  · refine step_keeps h (P := State.QuietLawful) (fun c u ⟨quiet, hushed⟩ run => ?_) (fun rest ⟨quiet, hushed⟩ => ?_) lawful
    · exact ⟨exec_grant_none quiet run, (exec_keeps run).hushed hushed⟩
    · exact ⟨(State.AddsNoRequester.mk (s := s) (t := s.withPending rest) rfl rfl rfl rfl rfl id fun x => by cases x <;> rfl).grant_none quiet,
        hushed⟩
  · have silent : s.acknowledges = false := by simp [State.acknowledges, flush]
    have latched := hushed.2 p silent holds.framing
    have complete := holds.1
    simp [PortRecord.frameComplete, latched] at complete

/-! ## The block as a whole -/

/-- Every command answers a next state: each branch of its meaning does. -/
theorem exec_next (c : Instr) (s : State) : ∃ t, exec c s = .next t := by
  cases c
  case makeTag | checkTag | pin | unpin | slotStatus | partStatus | readDemand | batchOpen | batchStep | batchClose | batchResult
      | activate | cancel | unknownCommand | secondBeat | stagingWindowExpiry | lifeWarning | expiry | graceEnd | pinLapse
      | scheduledActivation => exact ⟨_, rfl⟩
  all_goals
    simp only [exec, execFrameDiscard, execReadTransfer, execStretchTimeout, execBusTimeout, execIssue, execTagComparison,
      execWriteComplete, execWriteFailure, execCarryForward, execTick, execAuthenticatorCheck, execUnwrap, execPfwnAssert,
      execPfwnRelease, execRstnLow, execSupplyLoss, execRstnRelease, execSupplyReturn, execWriteTransfer, execWriteByte]
    repeat' split
  all_goals exact ⟨_, rfl⟩

/-- Settles O1. -/
theorem stepRunsTheFrontCommand : Obligations.StepRunsTheFrontCommand := by
  intro c rest s
  refine ⟨fun front => by simp only [step, front], fun empty => by simp only [step, empty], ?_⟩
  obtain ⟨t, run⟩ := exec_next c s
  exact ⟨t, run, (exec_keeps run).pending⟩

end Sys2Proof.Machine
end

section
/-! PROOFS. The ports (chapter 10): the bytes of a write frame, the transfers, the timeouts, the frames that take no command, and the unknown
command. -/

namespace Sys2Proof.Machine

section
variable {s : State} {p : Port}

/-! ## The bytes of a write frame (R190) -/

theorem execWriteByte_of_write (write : (s.port p).framing = .write) (b : Byte) :
    exec (.writeByte p b) s = .next (s.setPort p ((s.port p).byteIn b)) := if_pos write

theorem execWriteByte_of_ne_write (other : (s.port p).framing ≠ .write) (b : Byte) : exec (.writeByte p b) s = .next s := if_neg other

end

/-- Settles O18: each clause is the branch of `PortRecord.byteIn` that its hypotheses pick. -/
theorem writeByteTable : Obligations.WriteByteTable := by
  intro p b s r
  refine ⟨fun other => execWriteByte_of_ne_write other b, fun write => ?_⟩
  have stored {r' : PortRecord} (h : r.byteIn b = { r' with busTimer := .running }) :
      exec (.writeByte p b) s = .next (s.setPort p { r' with busTimer := .running }) := by
    rw [execWriteByte_of_write write, ← h]
  refine ⟨fun latch => stored ?_, fun latch phase request => stored ?_, fun latch phase request => stored ?_,
    fun latch phase long => stored ?_, fun latch phase fits => stored ?_, fun latch phase open_ => stored ?_,
    fun latch phase full => stored ?_⟩
  · exact if_pos latch
  · obtain ⟨q, held⟩ := Option.isSome_iff_exists.mp request
    simp [PortRecord.byteIn, latch, phase, PortRecord.commandByte, held, PortRecord.nack, RxPhase.next]
  · simp [PortRecord.byteIn, latch, phase, PortRecord.commandByte, request, PortRecord.ack, RxPhase.next]
  · simp [PortRecord.byteIn, latch, phase, PortRecord.lengthByte, long, PortRecord.nack, RxPhase.next]
  · simp [PortRecord.byteIn, latch, phase, PortRecord.lengthByte, Nat.not_lt.mpr fits, PortRecord.ack, RxPhase.next]
  · simp [PortRecord.byteIn, latch, phase, PortRecord.payloadByte, Nat.pos_iff_ne_zero.mp open_, PortRecord.ack, RxPhase.next]
  · simp [PortRecord.byteIn, latch, phase, PortRecord.payloadByte, full, PortRecord.nack, RxPhase.next]

/-! ## Transfers (R189, R196) -/

section
variable (s : State) (p : Port)

theorem execWriteTransfer_of_open (open_ : (s.port p).framing ≠ .stretch) (addr : BitVec 7) :
    exec (.writeTransfer p addr) s = .next ((s.closeTransfer p).setPort p
      (if addr = ((s.closeTransfer p).port p).address ∧ (s.closeTransfer p).acknowledges = true
        then ((s.closeTransfer p).port p).started.writing addr else ((s.closeTransfer p).port p).started.ignoring)) := if_neg open_

theorem execReadTransfer_of_open (open_ : (s.port p).framing ≠ .stretch) (addr : BitVec 7) :
    exec (.readTransfer p addr) s = .next ((s.closeTransfer p).setPort p
      (if addr = ((s.closeTransfer p).port p).address ∧ (s.closeTransfer p).acknowledges = true
        then ((s.closeTransfer p).port p).started.reading else ((s.closeTransfer p).port p).started.ignoring)) := if_neg open_

theorem closeTransfer_of_idle (idle : (s.port p).framing = .idle) : s.closeTransfer p = s := by
  simp only [State.closeTransfer, idle]

theorem closeTransfer_of_read (read : (s.port p).framing = .read) : s.closeTransfer p = s.setPort p (s.port p).idled := by
  simp only [State.closeTransfer, read]

theorem closeTransfer_of_incomplete (write : (s.port p).framing = .write) (incomplete : (s.port p).frameComplete = false) :
    s.closeTransfer p = s.setPort p (s.port p).dropped := by
  simp [State.closeTransfer, write, incomplete]

theorem closeTransfer_of_complete {b : Byte} (complete : (s.port p).frameComplete = true) (command : (s.port p).buffer.command = some b) :
    s.closeTransfer p = ((s.frameTaken p).dealWith p b).settle := by
  simp [State.closeTransfer, PortRecord.frameComplete_framing complete, complete, command]

/-- A frame whose command byte names no command (R194). -/
theorem dealWith_unknown {b : Byte} (unknown : commandCodes.contains b = false) : s.dealWith p b = s.refuse p .unknownCommand := by
  have names {n : Nat} (code : BitVec.ofNat 8 n ∈ commandCodes) : b.toNat ≠ n := by
    rintro rfl
    rw [BitVec.ofNat_toNat, BitVec.setWidth_eq] at code
    simp [code] at unknown
  unfold State.dealWith
  split
  case h_14 => rfl
  all_goals exact absurd ‹_› (names (by decide))

/-- The command row that takes a frame does what the byte of the frame calls for. -/
theorem exec_commandRow {b : Byte} {c : Instr} (row : CommandRow p b c) (complete : (s.port p).frameComplete = true)
    (command : (s.port p).buffer.command = some b) : exec c s = .next ((s.frameTaken p).dealWith p b).settle := by
  have stop {is : Byte → Bool} {work : State → State} (picks : is b = true)
      (same : work (s.frameTaken p) = (s.frameTaken p).dealWith p b) :
      s.atStop p is work = ((s.frameTaken p).dealWith p b).settle := by
    rw [← same]
    exact if_pos ⟨complete, by rw [command]; exact picks⟩
  rcases row with known | ⟨unknown, rfl⟩
  · simp only [List.mem_cons, List.not_mem_nil, or_false, Prod.mk.injEq] at known
    rcases known with ⟨rfl, rfl⟩ | ⟨rfl, rfl⟩ | ⟨rfl, rfl⟩ | ⟨rfl, rfl⟩ | ⟨rfl, rfl⟩ | ⟨rfl, rfl⟩ | ⟨rfl, rfl⟩ | ⟨rfl, rfl⟩ |
      ⟨rfl, rfl⟩ | ⟨rfl, rfl⟩ | ⟨rfl, rfl⟩ | ⟨rfl, rfl⟩ | ⟨rfl, rfl⟩ <;>
    exact congrArg Host.Outcome.next (stop rfl rfl)
  · have other : commandCodes.contains b = false := by simpa [commandCodes] using unknown
    exact congrArg Host.Outcome.next (stop (by rw [other]; rfl) (dealWith_unknown _ p other).symm)

theorem execFrameDiscard_of_incomplete (write : (s.port p).framing = .write) (incomplete : (s.port p).frameComplete = false) :
    exec (.frameDiscard p) s = .next (s.setPort p (s.port p).dropped) := by
  simp [exec, execFrameDiscard, write, incomplete]

/-- A repeated START first ends the open transfer as the STOP would (R189, R192). -/
theorem closedBy_closeTransfer (open_ : (s.port p).framing ≠ .stretch) : s.ClosedBy p (s.closeTransfer p) := by
  refine ⟨closeTransfer_framing s p open_, closeTransfer_of_idle s p, closeTransfer_of_read s p, fun write incomplete => ?_,
    fun complete b c command row => ?_⟩
  · rw [closeTransfer_of_incomplete s p write incomplete, execFrameDiscard_of_incomplete s p write incomplete]
  · rw [closeTransfer_of_complete s p complete command, exec_commandRow s p row complete command]

/-- The address byte of a repeated START counts for the port in IDLE. -/
theorem exec_transfer_closed (open_ : (s.port p).framing ≠ .stretch) (addr : BitVec 7) :
    exec (.writeTransfer p addr) s = exec (.writeTransfer p addr) (s.closeTransfer p) ∧
    exec (.readTransfer p addr) s = exec (.readTransfer p addr) (s.closeTransfer p) := by
  have idle := closeTransfer_framing s p open_
  have free : ((s.closeTransfer p).port p).framing ≠ .stretch := by rw [idle]; decide
  rw [execWriteTransfer_of_open s p open_, execReadTransfer_of_open s p open_, execWriteTransfer_of_open _ p free,
    execReadTransfer_of_open _ p free, closeTransfer_of_idle _ p idle]
  exact ⟨rfl, rfl⟩

theorem ne_stretch_of_write_or_read {f : Framing} (open_ : f = .write ∨ f = .read) : f ≠ .stretch := by
  rintro rfl
  simp at open_

/-- The address byte with its direction bit, as a number (R189). -/
theorem addressByte_write (addr : BitVec 7) : addressByte addr false = BitVec.ofNat 8 (2 * addr.toNat) := by
  apply BitVec.eq_of_toNat_eq
  have := addr.isLt
  rw [addressByte, BitVec.toNat_append, BitVec.toNat_ofNat]
  simp [Nat.shiftLeft_eq]
  omega

end

/-- Settles O19: at a port in IDLE no transfer is to be closed, and elsewhere `State.closeTransfer` is what the STOP would do. -/
theorem writeTransferOpensAFrame : Obligations.WriteTransferOpensAFrame := by
  intro p addr s r
  refine ⟨fun idle => ⟨fun own acknowledges => ?_, fun other => ?_⟩, fun stretch => if_pos stretch, fun open_ _ => ?_⟩
  · have free : (s.port p).framing ≠ .stretch := by rw [show (s.port p).framing = .idle from idle]; decide
    rw [execWriteTransfer_of_open s p free, closeTransfer_of_idle s p idle, if_pos ⟨own, acknowledges⟩]
    simp only [PortRecord.writing, PortRecord.started, addressByte_write]
    cases (s.port p).request <;> simp [r]
  · have free : (s.port p).framing ≠ .stretch := by rw [show (s.port p).framing = .idle from idle]; decide
    have ignored : ¬ (addr = (s.port p).address ∧ s.acknowledges = true) := fun ⟨own, acknowledges⟩ =>
      other.elim (fun differs => differs own) (fun silent => by simp [silent] at acknowledges)
    rw [execWriteTransfer_of_open s p free, execReadTransfer_of_open s p free, closeTransfer_of_idle s p idle, if_neg ignored, if_neg ignored]
    have same : (s.port p).started.ignoring = { r with latch := false, busTimer := .stopped, answer := some .nack } := by
      simp [PortRecord.ignoring, PortRecord.started, PortRecord.idled, r, ← show (s.port p).framing = .idle from idle]
    rw [same]
    exact ⟨rfl, rfl⟩
  · have free := ne_stretch_of_write_or_read open_
    exact ⟨s.closeTransfer p, closedBy_closeTransfer s p free, (exec_transfer_closed s p free addr).1⟩

/-- Settles O20: the bytes of `PortRecord.reading` are those of the reply buffer, and elsewhere `State.closeTransfer` is what the STOP would
do. -/
theorem readTransferServesTheReply : Obligations.ReadTransferServesTheReply := by
  intro p s r serves
  refine ⟨fun idle acknowledges => ?_, fun addr stretch => if_pos stretch, fun addr open_ _ => ?_⟩
  · have free : (s.port p).framing ≠ .stretch := by rw [show (s.port p).framing = .idle from idle]; decide
    have read : exec (.readTransfer p r.address) s = .next (s.setPort p (s.port p).started.reading) := by
      rw [execReadTransfer_of_open s p free, closeTransfer_of_idle s p idle, if_pos ⟨rfl, acknowledges⟩]
    have sends (bytes : List Byte) (reading : (s.port p).started.reading =
        { r with framing := .read, busTimer := .running, sending := bytes }) : serves bytes :=
      ⟨by rw [read, reading], fun n => by simp [PortRecord.sends]⟩
    refine ⟨fun st payload reply => sends _ ?_, fun none => sends _ ?_, fun waits => ?_⟩
    · have reply : (s.port p).reply = .reply st payload := reply
      simp [PortRecord.reading, PortRecord.started, reply, r, replyBytes]
    · have none : (s.port p).reply = .noReply := none
      simp [PortRecord.reading, PortRecord.started, none, r, replyBytes, Status.code]
    · have waits : (s.port p).reply = .notReady := waits
      have stretches : (s.port p).started.reading =
          { r with framing := .stretch, busTimer := .stopped, stretchTimer := .running, sending := [] } := by
        simp [PortRecord.reading, PortRecord.started, waits, r]
      rw [read, stretches]
      exact ⟨rfl, by simp [State.holdsClock], fun n => by simp [PortRecord.sends]⟩
  · have free := ne_stretch_of_write_or_read open_
    exact ⟨s.closeTransfer p, closedBy_closeTransfer s p free, (exec_transfer_closed s p free addr).2⟩

/-! ## The timeouts (R197, R198) and the STOP that takes no frame (R192) -/

/-- Settles O21: the stretch ends by its timer or by the reply, and the port then sends what it has fixed. -/
theorem stretchTimeoutSendsPending : Obligations.StretchTimeoutSendsPending := by
  intro p s
  refine ⟨fun stretch => ⟨⟨if_pos stretch, by simp [State.holdsClock], fun n => by simp [PortRecord.sends]⟩, fun st payload => ?_⟩,
    fun other => if_neg other⟩
  simp [PortRecord.completed, stretch, PortRecord.sends, replyBytes]

section
variable {r : PortRecord}

theorem dropped_of_address (phase : r.phase = .address) : r.dropped = { r with framing := .idle, busTimer := .stopped } := if_pos phase

/-- A frame with a command byte is discarded, and the reply stays where a request is in flight (R192). -/
theorem dropped_of_command (phase : r.phase ≠ .address) :
    r.dropped = { r with framing := .idle, busTimer := .stopped, byteCount := 0, lastRefusal := .badLength,
                         reply := if r.request.isSome then r.reply else .reply .badLength [] } := by
  rw [PortRecord.dropped, if_neg phase]
  cases request : r.request <;> simp [PortRecord.discarded, PortRecord.idled, request]

theorem frameComplete_iff (r : PortRecord) :
    r.frameComplete = true ↔ r.framing = .write ∧ r.latch = false ∧ r.phase = .length ∧ r.byteCount = 0 := by
  simp [PortRecord.frameComplete, and_assoc]

end

/-- Settles O22: in WRITE the frame is dropped, in READ the transfer ends. -/
theorem busTimeoutDropsTheTransfer : Obligations.BusTimeoutDropsTheTransfer := by
  intro p s r idle
  have drops (write : r.framing = .write) : exec (.busTimeout p) s = .next (s.setPort p r.dropped) := by
    simp [exec, execBusTimeout, show (s.port p).framing = .write from write, r]
  refine ⟨fun write phase => ?_, fun write phase request => ?_, fun write phase request => ?_, fun read => ?_, fun other => ?_⟩
  · rw [drops write, dropped_of_address phase]
  · rw [drops write, dropped_of_command phase, if_neg (by simp [request])]
  · rw [drops write, dropped_of_command phase, if_pos request]
  · simp only [exec, execBusTimeout, show (s.port p).framing = .read from read]
    rfl
  · rcases other with idle' | stretch
    · simp only [exec, execBusTimeout, show (s.port p).framing = .idle from idle']
    · simp only [exec, execBusTimeout, show (s.port p).framing = .stretch from stretch]

/-- Settles O23: an open frame is dropped unless it is complete, which `frameComplete_iff` reads field by field. -/
theorem frameDiscardAnswersBadLength : Obligations.FrameDiscardAnswersBadLength := by
  intro p s r idle
  have drops (write : r.framing = .write) (incomplete : ¬ (r.latch = false ∧ r.phase = .length ∧ r.byteCount = 0)) :
      exec (.frameDiscard p) s = .next (s.setPort p r.dropped) :=
    execFrameDiscard_of_incomplete s p write
      (Bool.eq_false_iff.mpr fun complete => incomplete ((frameComplete_iff r).mp complete).2)
  refine ⟨fun write phase => ?_, fun write phase incomplete => ?_, fun write latch phase count => ?_, fun read => ?_, fun other => ?_⟩
  · rw [drops write (by simp [phase]), dropped_of_address phase]
  · rw [drops write, dropped_of_command phase]
    rintro ⟨latch, length, count⟩
    rcases incomplete with latched | command | more
    · simp [latch] at latched
    · simp [length] at command
    · omega
  · have complete := (frameComplete_iff r).mpr ⟨write, latch, phase, count⟩
    simp only [exec, execFrameDiscard, show (s.port p).framing = .write from write]
    exact if_pos complete
  · simp only [exec, execFrameDiscard, show (s.port p).framing = .read from read]
    rfl
  · rcases other with idle' | stretch
    · simp only [exec, execFrameDiscard, show (s.port p).framing = .idle from idle']
    · simp only [exec, execFrameDiscard, show (s.port p).framing = .stretch from stretch]

/-! ## The unknown command (R194) and SLOT_STATUS (R21) -/

/-- Settles O24. -/
theorem unknownCommandIsRefused : Obligations.UnknownCommandIsRefused := by
  intro p s b holds rest unknown
  refine congrArg Host.Outcome.next ?_
  rw [atStop_of_holds _ holds (by simpa [commandCodes] using unknown), settle_refuse_frameTaken holds rest]

section
variable {s : State} {p : Port} {code : Byte} {α : Type}

/-- A frame that R202 refuses is answered at its take, and nothing else changes. -/
theorem atStop_refused {is : Byte → Bool} (holds : s.Holds p code) (rest : s.AtRest) (names : is code = true)
    {read : List Byte → Checked α} {e : Status} (frame : read (s.payload p) = .error e) (work : State → α → State) :
    s.atStop p is (fun t => t.checked p (read (t.payload p)) (work t)) = s.answered p e [] := by
  rw [atStop_of_holds _ holds names, frameTaken_payload, frame]
  exact settle_refuse_frameTaken holds rest e

/-- A slot byte of a frame is its number. -/
theorem fieldAt_single (b : Byte) : fieldAt 0 1 [b] = b.toNat := by
  simp [fieldAt, bytesAt, beNat]

theorem slotStatusFrame_single (b : Byte) :
    slotStatusFrame [b] = if h : b.toNat < 24 then .ok ⟨b.toNat, h⟩ else .error .noSlot := by
  simp only [slotStatusFrame, need, List.length_singleton, decide_true, if_true, checkedSlot, fieldAt_single]

theorem slotStatusFrame_length {bs : List Byte} (length : bs.length ≠ 1) : slotStatusFrame bs = .error .badField := by
  simp [slotStatusFrame, need, length]

end

/-- Settles O26. -/
theorem slotStatusReportsTheSlot : Obligations.SlotStatusReportsTheSlot := by
  intro p s b holds rest
  have refused {e : Status} (frame : slotStatusFrame (s.payload p) = .error e) :
      exec (.slotStatus p) s = .next (s.answered p e []) :=
    congrArg Host.Outcome.next (atStop_refused holds rest (by decide) frame _)
  refine ⟨fun i payload index => ?_, fun payload high => refused ?_, fun length => refused (slotStatusFrame_length length)⟩
  · have lt : b.toNat < 24 := index ▸ i.isLt
    have named : (⟨b.toNat, lt⟩ : Fin 24) = i := Fin.ext index
    refine congrArg Host.Outcome.next ?_
    rw [atStop_of_holds _ holds (by decide), State.takeSlotStatus, frameTaken_payload, payload, slotStatusFrame_single, dif_pos lt, named]
    have slot : (s.frameTaken p).slot i = s.slot i := s.setPort_slot p _ i
    rw [State.checked, slot]
    exact settle_complete_frameTaken holds rest _ _
  · rw [payload, slotStatusFrame_single, dif_neg (by omega)]

end Sys2Proof.Machine
end

section
/-! PROOFS. Deadlines and the staging window (chapters 1, 5 and 6): the events of a slot, scheduled activation, the second beat. -/

namespace Sys2Proof.Machine

section
variable {s : State} {i : Fin 24}

/-! ## The deadlines of a slot (R19, R133, R134) -/

theorem lifeWarningDue_iff {k : Current} {y : Policy} {l : Nat} (lifetime : k.lifetime = some l) (t : Nat) :
    k.lifeWarningDue (some y) t = true ↔
      k.lifeWarned = false ∧ k.state ≠ .expired ∧ 0 < y.lifeWarn ∧ k.activation + l ≤ t + y.lifeWarn := by
  simp [Current.lifeWarningDue, Current.inLifeWarning, lifetime, and_assoc]

theorem lifeWarning_of_due {k : Current} (current : (s.slot i).current = some k)
    (due : k.lifeWarningDue (s.slot i).policy s.time.t = true) :
    s.lifeWarning i = s.slotDemand i { s.slot i with current := some { k with lifeWarned := true } }
      ⟨.lifeLow, some i, some k.generation, none, s.time.t⟩ := by
  rw [State.lifeWarning, current, ← raiseSlot_setSlot (by rfl)]
  exact if_pos due

theorem lifeWarning_of_not_due {k : Current} (current : (s.slot i).current = some k)
    (due : k.lifeWarningDue (s.slot i).policy s.time.t ≠ true) : s.lifeWarning i = s := by
  rw [State.lifeWarning, current]
  exact if_neg due

theorem endGrace_of_due {k : Prior} (prior : (s.slot i).prior = some k) (due : k.graceEnd ≤ s.time.t) :
    s.endGrace i = s.setSlot i { s.slot i with prior := none } := by
  rw [State.endGrace, prior]
  exact if_pos due

theorem endGrace_of_not_due {k : Prior} (prior : (s.slot i).prior = some k) (ahead : s.time.t < k.graceEnd) : s.endGrace i = s := by
  rw [State.endGrace, prior]
  exact if_neg (Nat.not_le.mpr ahead)

/-- In RETIRED no deadline is evaluated (R175). -/
theorem slotEvent_of_retired (retired : s.supply.lifeCycle = .retired) (n : Nat) (f : Fin 24 → State) : s.slotEvent n f = s := by
  unfold State.slotEvent
  split
  · simp [State.evaluates, retired]
  · rfl

/-- A demand to one port's queue alone. -/
theorem raise_only (s : State) (p : Port) (d : Demand) : s.raise (.only p) d = s.setQueue p (arrive (s.queue p) d) := by
  cases p <;> rfl

/-- The lapse of a pin before its commit start test (R19). -/
def State.pinLapsed (s : State) (i : Fin 24) (k : Pin) : State :=
  (s.setSlot i { s.slot i with pin := none }).setQueue k.holder
    (arrive (s.queue k.holder) ⟨.pinLapsed, some i, some k.generation, none, s.time.t⟩)

theorem lapsePin_of_due {k : Pin} (pin : (s.slot i).pin = some k) (due : k.pinEnd ≤ s.time.t) :
    s.lapsePin i = (s.pinLapsed i k).commitStart := by
  have queue : (s.setSlot i { s.slot i with pin := none }).queue k.holder = s.queue k.holder := by cases k.holder <;> rfl
  rw [State.lapsePin, pin, State.pinLapsed, ← queue, ← raise_only]
  exact if_pos due

theorem lapsePin_of_ahead {k : Pin} (pin : (s.slot i).pin = some k) (ahead : s.time.t < k.pinEnd) : s.lapsePin i = s := by
  rw [State.lapsePin, pin]
  exact if_neg (Nat.not_le.mpr ahead)

theorem commitStart_of_not_run (run : s.supply.run ≠ .run) : s.commitStart = s := if_neg (by simp [run])

end

/-- Settles O13. -/
theorem lifeWarningRaisesLifeLow : Obligations.LifeWarningRaisesLifeLow := by
  intro s i k y l run life current policy lifetime
  have event : exec (.lifeWarning i.val) s = .next (s.lifeWarning i) :=
    congrArg Host.Outcome.next (slotEvent_of_evaluates run life i _)
  have due_iff := lifeWarningDue_iff (y := y) lifetime s.time.t
  rw [← policy] at due_iff
  rw [event]
  refine ⟨fun mark alive warns reached => ?_, fun stays => ?_⟩
  · rw [lifeWarning_of_due current (due_iff.mpr ⟨mark, alive, warns, reached⟩)]
  · rw [lifeWarning_of_not_due current fun due => ?_]
    obtain ⟨mark, alive, warns, reached⟩ := due_iff.mp due
    rcases stays with marked | expired | none | ahead
    · simp [marked] at mark
    · exact alive expired
    · omega
    · omega

/-- Settles O15. -/
theorem graceEndRemovesThePrior : Obligations.GraceEndRemovesThePrior := by
  intro s i k run prior
  refine ⟨fun life due => ?_, fun stays => ?_⟩
  · rw [← endGrace_of_due prior due]
    exact congrArg Host.Outcome.next (slotEvent_of_evaluates run life i _)
  · refine congrArg Host.Outcome.next ?_
    by_cases retired : s.supply.lifeCycle = .retired
    · exact slotEvent_of_retired retired _ _
    · rw [slotEvent_of_evaluates run retired i]
      exact endGrace_of_not_due prior (stays.resolve_left retired)

/-- Settles O16: outside RUN the commit start test does nothing, and a part at rest without a pin is at rest. -/
theorem pinLapseRemovesThePin : Obligations.PinLapseRemovesThePin := by
  intro s i k run life pin due d u
  have lapse : s.slotEvent i.val s.lapsePin = u.commitStart := by
    rw [slotEvent_of_evaluates run life i, lapsePin_of_due pin due]
    rfl
  have event : exec (.pinLapse i.val) s = .next u.commitStart.settle :=
    congrArg (fun x => Host.Outcome.next (State.settle x)) lapse
  refine ⟨event, fun other rest => ?_⟩
  have still : u.commitStart = u := commitStart_of_not_run (by simpa [u] using other)
  have quiet : (s.setSlot i { s.slot i with pin := none }).AtRest :=
    rest.of_same rfl rfl (fun y => by cases y <;> rfl) rfl
  rw [event, still, settle_of_atRest (quiet.setQueue _ _)]

/-! ## Scheduled activation (R104) -/

section
variable {s : State} {a : Nat}

theorem scheduledActivation_of_reached (armed : s.renewal.state = .armed) (tick : s.renewal.activationTick = some a)
    (run : s.supply.run ≠ .starting) (disarm : s.renewal.disarm = false) (flag : s.renewal.activation = false) (due : a ≤ s.time.t) :
    s.scheduledActivation = ({ s with renewal := { s.renewal with activation := true } } : State).commitStart := by
  rw [State.scheduledActivation, tick]
  exact if_pos ⟨armed, disarm, flag, due, run⟩

/-- No flag is set where the batch is not armed, is being disarmed, has its flag, or has not reached its tick. -/
theorem scheduledActivation_of_not_reached
    (stays : ¬ (s.renewal.state = .armed ∧ s.renewal.disarm = false ∧ s.renewal.activation = false ∧
      ∃ a ∈ s.renewal.activationTick, a ≤ s.time.t)) : s.scheduledActivation = s := by
  unfold State.scheduledActivation
  split
  next a tick => exact if_neg fun ⟨armed, disarm, flag, due, _⟩ => stays ⟨armed, disarm, flag, a, tick, due⟩
  next => rfl

end

/-- Settles O17. -/
theorem scheduledActivationSetsTheFlag : Obligations.ScheduledActivationSetsTheFlag := by
  intro s a armed tick run rest u
  refine ⟨fun disarm flag due => ?_, fun stays => ?_⟩
  · have event : exec .scheduledActivation s = .next u.commitStart.settle :=
      congrArg (fun x => Host.Outcome.next (State.settle x)) (scheduledActivation_of_reached armed tick run disarm flag due)
    refine ⟨fun held => ?_, fun running unpinned hold => ?_⟩
    · have still : u.commitStart = u := held.elim (commitStart_of_not_run (s := u)) (commitStart_of_pinned (s := u))
      rw [event, still, settle_of_atRest (rest.withRenewal _)]
    · rw [event, commitStart_requests (s := u) armed disarm rfl unpinned running hold]
  · have still : s.scheduledActivation = s := scheduledActivation_of_not_reached fun ⟨_, disarm, flag, b, tick', due⟩ => by
      cases Option.mem_unique tick tick'
      rcases stays with disarming | flagged | ahead
      · simp [disarming] at disarm
      · simp [flagged] at flag
      · omega
    refine congrArg Host.Outcome.next ?_
    rw [still, settle_of_atRest rest]

/-! ## The staging window (R78, R123) -/

/-- Settles O12: what the expiry leaves is `refuseBatch_eq`. -/
theorem secondBeatCountsTheWindow : Obligations.SecondBeatCountsTheWindow := by
  intro s
  have expires {t : State} (staging : t.renewal.state = .staging) (full : 120 ≤ t.renewal.windowCount) :
      t.windowExpiry = t.refuseBatch .timeout := if_pos ⟨staging, full⟩
  have waits {t : State} (short : t.renewal.windowCount < 120) : t.windowExpiry = t := if_neg fun ⟨_, full⟩ => by omega
  refine ⟨fun other => ?_, fun staging => ?_⟩
  · have still : s.beat = s := if_neg other
    refine congrArg Host.Outcome.next ?_
    rw [still]
    exact if_neg fun ⟨staging, _⟩ => other staging
  intro counted
  have beat : s.beat = counted := if_pos staging
  refine ⟨fun short => ?_, fun full => ?_, fun short => congrArg Host.Outcome.next (waits short), fun full => ?_⟩
  · refine congrArg Host.Outcome.next ?_
    rw [beat]
    exact waits short
  · refine congrArg Host.Outcome.next ?_
    rw [beat]
  · obtain ⟨v, slots, refused⟩ := refuseBatch_eq s .timeout
    have outcomes : s.renewal.outcomes = [] := if_pos staging
    have event : exec .stagingWindowExpiry s = .next (s.refuseBatch .timeout) := congrArg Host.Outcome.next (expires staging full)
    refine ⟨_, event, ?_⟩
    rw [refused, outcomes]
    exact ⟨rfl, rfl, rfl, rfl, rfl, rfl, rfl, rfl, rfl, rfl, rfl, rfl, rfl, rfl, rfl, slots⟩

/-! ## The checks of every batch command (R73) -/

section
variable {s : State} {p : Port} {code : Byte} {α : Type}

theorem batchChecked_of_retired (retired : s.supply.lifeCycle = .retired) (k : State → State) :
    s.batchChecked p k = s.refuse p .retired := if_pos retired

theorem batchChecked_of_fault (life : s.supply.lifeCycle ≠ .retired) (fault : s.supply.run = .fault) (k : State → State) :
    s.batchChecked p k = s.refuse p .fault := by rw [State.batchChecked, if_neg life, if_pos fault]

theorem batchChecked_of_other_port (life : s.supply.lifeCycle ≠ .retired) (run : s.supply.run ≠ .fault)
    (port : s.supply.lifeCycle.batchPort ≠ some p) (k : State → State) : s.batchChecked p k = s.refuse p .notPermitted := by
  rw [State.batchChecked, if_neg life, if_neg run, if_pos port]

/-- A batch command whose frame passes R202 and which R73 refuses is answered at its take, and nothing else changes. -/
theorem atStop_batch_refused {is : Byte → Bool} (holds : s.Holds p code) (rest : s.AtRest) (names : is code = true)
    {read : List Byte → Checked α} {x : α} (frame : read (s.payload p) = .ok x) (work : State → α → State) {e : Status}
    (refused : ∀ k : State → State, (s.frameTaken p).batchChecked p k = (s.frameTaken p).refuse p e) :
    s.atStop p is (fun t => t.checked p (read (t.payload p)) fun a => t.batchChecked p fun u => work u a) = s.answered p e [] := by
  rw [atStop_of_holds _ holds names, frameTaken_payload, frame]
  exact (congrArg State.settle (refused fun u => work u x)).trans (settle_refuse_frameTaken holds rest e)

end

/-- Settles O32: every batch command makes the checks of R73 before anything else. -/
theorem batchCommandsNeedTheBatchPort : Obligations.BatchCommandsNeedTheBatchPort := by
  intro p s c code rest holds command
  have refused {e : Status} (checked : ∀ k : State → State, (s.frameTaken p).batchChecked p k = (s.frameTaken p).refuse p e) :
      exec c s = .next (s.answered p e []) := by
    rcases command with ⟨rfl, rfl, x, frame⟩ | ⟨rfl, rfl, x, frame⟩ | ⟨rfl, rfl, x, frame⟩ | ⟨rfl, rfl, frame⟩ | ⟨rfl, rfl, x, frame⟩ |
      ⟨rfl, rfl, x, frame⟩
    · exact congrArg Host.Outcome.next (atStop_batch_refused holds rest (by decide) frame _ checked)
    · exact congrArg Host.Outcome.next (atStop_batch_refused holds rest (by decide) frame _ checked)
    · exact congrArg Host.Outcome.next (atStop_batch_refused holds rest (by decide) frame _ checked)
    · exact congrArg Host.Outcome.next (atStop_batch_refused (read := emptyFrame) (x := ()) holds rest (by decide) (by rw [frame]; rfl)
        (fun u _ => u.complete p .ok u.renewal.result.bytes) checked)
    · exact congrArg Host.Outcome.next (atStop_batch_refused holds rest (by decide) frame
        (fun u q => u.activateBatch p q) checked)
    · exact congrArg Host.Outcome.next (atStop_batch_refused holds rest (by decide) frame
        (fun u q => u.cancelCommand p q) checked)
  have supply : (s.frameTaken p).supply = s.supply := s.setPort_supply p _
  refine ⟨fun retired => refused (batchChecked_of_retired (by rw [supply, retired])),
    fun life fault => refused (batchChecked_of_fault (by rwa [supply]) (by rw [supply, fault])), fun run other => refused ?_⟩
  rcases other with ⟨factory, rfl⟩ | ⟨operational, rfl⟩
  · exact batchChecked_of_other_port (by simp [supply, factory]) (by rwa [supply]) (by simp [supply, factory, LifeCycle.batchPort])
  · exact batchChecked_of_other_port (by simp [supply, operational]) (by rwa [supply]) (by simp [supply, operational, LifeCycle.batchPort])

/-! ## Reset (R23, R137, R168) -/

/-- Settles O2: every clause is read off the delivered part. -/
theorem resetIsTheDeliveredPart : Obligations.ResetIsTheDeliveredPart :=
  ⟨⟨rfl, fun _ => Vector.getElem_replicate _, rfl, rfl, rfl, rfl, rfl, rfl, rfl, rfl, rfl, rfl, rfl, rfl, rfl, rfl, rfl, rfl, rfl, rfl, rfl⟩,
    rfl, rfl, rfl, rfl, rfl, rfl⟩

/-! ## The image banks are no part of a status reply (R21, R159) -/

/-- The state with other contents of the image banks. -/
def State.withBanks (s : State) (banks : List (Nat × BankCell)) : State := { s with journal := { s.journal with banks := banks } }

section
variable (s : State) (p : Port) (banks : List (Nat × BankCell))

@[simp] theorem withBanks_port : (s.withBanks banks).port p = s.port p := by cases p <;> rfl

@[simp] theorem withBanks_inCharge : (s.withBanks banks).inCharge p = s.inCharge p := by cases p <;> rfl

theorem withBanks_setPort (r : PortRecord) : (s.withBanks banks).setPort p r = (s.setPort p r).withBanks banks := by
  cases p <;> rfl

theorem withBanks_complete (st : Status) (b : List Byte) :
    (s.withBanks banks).complete p st b = (s.complete p st b).withBanks banks := by
  rw [State.complete, withBanks_port, withBanks_setPort, State.complete]

theorem withBanks_frameTaken : (s.withBanks banks).frameTaken p = (s.frameTaken p).withBanks banks := by
  rw [State.frameTaken, withBanks_port, withBanks_setPort, State.frameTaken]

/-- Where a write goes, and what is handed over, do not look at the banks. -/
theorem withBanks_handOver (w : Write) (r : Requester) : (s.withBanks banks).handOver w r = (s.handOver w r).withBanks banks := by
  have handing : (s.withBanks banks).handing = s.handing := rfl
  rw [State.handOver, State.handOver, handing]
  cases s.handing <;> rfl

theorem withBanks_grantHold : (s.withBanks banks).grantHold = s.grantHold.withBanks banks :=
  withBanks_handOver { s with
    arbiter := { s.arbiter with hold := .granted }
    renewal := { s.renewal with state := .committing }
    commit := some ⟨s.now, false, .begin, [], none, []⟩ } banks _ _

variable {s}

/-- A part whose arbiter had no grant to make, and in which a request may have been completed since: the one grant that this may allow is
that of the table hold (R64). -/
theorem settle_after_completion {u : State} (rest : s.AtRest) (engine : u.engine = s.engine) (arbiter : u.arbiter = s.arbiter)
    (supply : u.supply = s.supply) :
    u.settle = if u.engine = none ∧ u.arbiter.hold = .requested ∧ u.arbiter.resumed = [] ∧ u.inCharge .M = false ∧ u.inCharge .L = false
      then u.grantHold else u := by
  obtain ⟨grant, run⟩ := rest
  rw [grant_eq_none_iff, ← engine, ← arbiter] at grant
  have run : u.supply.run ≠ .flush := by rwa [supply]
  split
  next due =>
    obtain ⟨free, requested, resumed, m, l⟩ := due
    have granted : u.grant = some u.grantHold :=
      grant_of_requested_hold free resumed requested fun x => by cases x <;> assumption
    exact settle_of_grant granted ⟨grant_none_of_hold (by simp [State.grantHold]), by simpa [State.grantHold] using run⟩
  next other =>
    refine settle_of_atRest ⟨(grant_eq_none_iff u).mpr ?_, run⟩
    by_cases free : u.engine = none
    · refine grant.imp_right (Or.imp_right ?_)
      rintro ⟨resumed, -, checking, next⟩
      exact ⟨resumed, fun ⟨requested, m, l⟩ => other ⟨free, requested, resumed, m, l⟩, checking, next⟩
    · exact .inl (Option.isSome_iff_ne_none.mpr free)

variable {p} {t : State}

/-- A command that leaves the engine, the arbiter and the run state to the end of its event, and whose work at its take does not look at the
banks. -/
theorem atStop_withBanks (rest : s.AtRest) {is : Byte → Bool} {work : State → State}
    (blind : work ((s.frameTaken p).withBanks banks) = (work (s.frameTaken p)).withBanks banks)
    (engine : (work (s.frameTaken p)).engine = s.engine) (arbiter : (work (s.frameTaken p)).arbiter = s.arbiter)
    (supply : (work (s.frameTaken p)).supply = s.supply) :
    (s.withBanks banks).atStop p is work = (s.atStop p is work).withBanks banks := by
  have quiet : (s.withBanks banks).AtRest := rest.of_same rfl rfl (withBanks_inCharge s · banks) rfl
  rw [State.atStop, State.atStop, withBanks_port, withBanks_frameTaken, blind, settle_after_completion rest engine arbiter supply,
    settle_after_completion (u := (work (s.frameTaken p)).withBanks banks) quiet engine arbiter supply]
  simp only [withBanks_inCharge, withBanks_grantHold]
  change (if _ then (if _ then _ else _) else _) = (if _ then (if _ then _ else _) else _ : State).withBanks banks
  rw [apply_ite (State.withBanks · banks), apply_ite (State.withBanks · banks)]
  rfl

/-- A command that is answered at its take leaves the engine, the arbiter and the supply monitor alone. -/
def State.SameBeyondPorts (u t : State) : Prop := t.engine = u.engine ∧ t.arbiter = u.arbiter ∧ t.supply = u.supply

theorem refuse_sameBeyondPorts (u : State) (p : Port) (e : Status) : u.SameBeyondPorts (u.refuse p e) := ⟨by simp, by simp, by simp⟩

theorem complete_sameBeyondPorts (u : State) (p : Port) (st : Status) (b : List Byte) : u.SameBeyondPorts (u.complete p st b) :=
  ⟨by simp, by simp, by simp⟩

theorem checked_sameBeyondPorts {α : Type} {u : State} (c : Checked α) {k : α → State} (passed : ∀ a, u.SameBeyondPorts (k a)) :
    u.SameBeyondPorts (u.checked p c k) := by
  cases c
  · exact refuse_sameBeyondPorts u p _
  · exact passed _

theorem batchChecked_sameBeyondPorts {u : State} {k : State → State} (passed : ∀ v : State, v.SameBeyondPorts (k v)) :
    u.SameBeyondPorts (u.batchChecked p k) := by
  unfold State.batchChecked
  split
  · exact refuse_sameBeyondPorts u p _
  split
  · exact refuse_sameBeyondPorts u p _
  split
  · exact refuse_sameBeyondPorts u p _
  split
  · exact passed _
  · exact passed u

/-- A frame that R202 looks at has its answer, whatever the banks hold, if what follows has. -/
theorem checked_withBanks {α : Type} {u : State} (c : Checked α) {k k' : α → State} (passed : ∀ a, k' a = (k a).withBanks banks) :
    (u.withBanks banks).checked p c k' = (u.checked p c k).withBanks banks := by
  cases c
  · exact withBanks_complete u p banks _ _
  · exact passed _

theorem batchChecked_withBanks {u : State} {k : State → State} (passed : ∀ t : State, k (t.withBanks banks) = (k t).withBanks banks) :
    (u.withBanks banks).batchChecked p k = (u.batchChecked p k).withBanks banks := by
  have refused (e : Status) : (u.withBanks banks).refuse p e = (u.refuse p e).withBanks banks := withBanks_complete u p banks _ _
  simp only [State.batchChecked, refused, apply_ite (State.withBanks · banks)]
  congr 3
  by_cases staging : u.renewal.state = .staging
  · rw [if_pos staging, ← passed, if_pos (show (u.withBanks banks).renewal.state = .staging from staging)]
    rfl
  · rw [if_neg staging, ← passed, if_neg (show ¬ (u.withBanks banks).renewal.state = .staging from staging)]

end

/-- Settles O29: the work of each command at its take looks at no bank, and neither does the grant that its end may allow. -/
theorem statusRepliesHideTheKeys : Obligations.StatusRepliesHideTheKeys := by
  intro p s t banks c rest command run
  have blind {is : Byte → Bool} {work : State → State} (hides : ∀ u : State, work (u.withBanks banks) = (work u).withBanks banks)
      (same : ∀ u : State, u.SameBeyondPorts (work u)) (command : exec c = fun s => .next (s.atStop p is work)) :
      exec c (s.withBanks banks) = .next (t.withBanks banks) := by
    obtain ⟨engine, arbiter, supply⟩ := same (s.frameTaken p)
    rw [command] at run ⊢
    rw [← Host.Outcome.next.inj run]
    exact congrArg Host.Outcome.next (atStop_withBanks banks rest (hides _) (engine.trans (s.setPort_engine p _))
      (arbiter.trans (s.setPort_arbiter p _)) (supply.trans (s.setPort_supply p _)))
  simp only [List.mem_cons, List.not_mem_nil, or_false] at command
  rcases command with rfl | rfl | rfl | rfl
  · refine blind (work := fun u => u.takeSlotStatus p) (fun u => ?_)
      (fun u => checked_sameBeyondPorts _ fun _ => complete_sameBeyondPorts u p _ _) rfl
    exact checked_withBanks banks _ fun _ => withBanks_complete u p banks _ _
  · refine blind (work := fun u => u.takePartStatus p) (fun u => ?_)
      (fun u => checked_sameBeyondPorts _ fun _ => complete_sameBeyondPorts u p _ _) rfl
    exact checked_withBanks banks _ fun _ => withBanks_complete u p banks _ _
  · refine blind (work := fun u => u.takeReadDemand p) (fun u => ?_) (fun u => checked_sameBeyondPorts _ fun _ => ?_) rfl
    · have queue : (u.withBanks banks).queue p = u.queue p := by cases p <;> rfl
      have removed : (u.withBanks banks).setQueue p (u.queue p).tail = (u.setQueue p (u.queue p).tail).withBanks banks := by
        cases p <;> rfl
      refine checked_withBanks banks _ fun _ => ?_
      rw [queue, removed, withBanks_complete]
    · exact ⟨by simp, by simp, by simp⟩
  · refine blind (work := fun u => u.takeBatchResult p) (fun u => ?_)
      (fun u => checked_sameBeyondPorts _ fun _ => batchChecked_sameBeyondPorts fun t => complete_sameBeyondPorts t p _ _) rfl
    exact checked_withBanks banks _ fun _ => batchChecked_withBanks banks fun t => withBanks_complete t p banks _ _

end Sys2Proof.Machine
end

section
/-! PROOFS. The frame checks (chapter 11, R202): which payloads of each command pass, and with which fields. -/

namespace Sys2Proof.Machine

theorem need_eq {α : Type} (ok : Bool) (c : Checked α) : need ok c = if ok = true then c else .error .badField := rfl

/-! ## Fields of a payload -/

/-- A byte of a payload as a field of one byte. -/
theorem fieldAt_one (off : Nat) (bs : List Byte) : fieldAt off 1 bs = (bs.getD off 0).toNat := by
  unfold fieldAt bytesAt beNat
  cases h : bs.drop off with
  | nil => 
    have : bs.length ≤ off := List.drop_eq_nil_iff.mp h
    simp [List.getD, this]
  | cons b rest =>
    have : bs[off]? = some b := by rw [← List.head?_drop, h]; rfl
    simp [List.getD, this]

/-- The lowest bit of a byte below 2 tells which of the two it is. -/
theorem getLsbD_zero_of_lt {b : Byte} (small : b.toNat < 2) : b.getLsbD 0 = decide (b.toNat = 1) := by
  rw [BitVec.getLsbD, Nat.testBit_zero]
  congr 1
  exact propext (by omega)

theorem need_need {α : Type} (a b : Bool) (c : Checked α) : need a (need b c) = need (a && b) c := by
  cases a <;> rfl

/-- A check passed exactly where a condition holds. -/
theorem need_iff {α : Type} {ok : Bool} {P : Prop} [Decidable P] (same : ok = true ↔ P) (c : Checked α) :
    need ok c = if P then c else .error .badField := by
  exact ite_congr (propext same) (fun _ => rfl) fun _ => rfl

theorem makeTagFrame_eq (b : List Byte) :
    makeTagFrame b = if 2 ≤ b.length ∧ b.length ≤ 194 ∧ fieldAt 1 1 b = 0 then .ok (fieldAt 0 1 b, none)
      else if 4 ≤ b.length ∧ b.length ≤ 196 ∧ fieldAt 1 1 b = 1 ∧ fieldAt 2 2 b ≠ 0 then .ok (fieldAt 0 1 b, some (fieldAt 2 2 b))
      else .error .badField := by
  have flags := fieldAt_one 1 b
  by_cases small : (b.getD 1 0).toNat < 2
  · have bit := getLsbD_zero_of_lt small
    by_cases one : (b.getD 1 0).toNat = 1
    · simp only [makeTagFrame, makeTagHead, bit, one, decide_true, if_true, need_need]
      rw [if_neg (by omega)]
      exact need_iff (by simp only [flags, one, Bool.and_eq_true, decide_eq_true_eq, true_and]; omega) _
    · have zero : (b.getD 1 0).toNat = 0 := by omega
      simp only [makeTagFrame, makeTagHead, bit, zero, need_need]
      rw [if_neg (by omega) (c := 4 ≤ _ ∧ _)]
      exact need_iff (by simp only [flags, zero, Bool.and_eq_true, decide_eq_true_eq, if_neg Nat.zero_ne_one, and_true]; omega) _
  · have refused : makeTagFrame b = .error .badField := by
      simp only [makeTagFrame, need_need, small, decide_false, Bool.and_false]
      rfl
    rw [refused, if_neg (by omega), if_neg (by omega)]

theorem checkTagFrame_eq (b : List Byte) :
    checkTagFrame b = if 15 ≤ b.length ∧ b.length ≤ 207 ∧ fieldAt 1 2 b ≠ 0
      then .ok (fieldAt 0 1 b, fieldAt 1 2 b, fieldAt 3 4 b, BitVec.ofNat 64 (fieldAt 7 8 b)) else .error .badField := by
  simp only [checkTagFrame, need_need]
  exact need_iff (by simp [and_assoc]) _

theorem batchOpenFrame_eq (b : List Byte) :
    batchOpenFrame b = if b.length = 7 ∧ fieldAt 0 4 b ≠ 0 ∧ 1 ≤ fieldAt 4 1 b ∧ fieldAt 4 1 b ≤ 8
      then .ok ⟨fieldAt 0 4 b, some (fieldAt 4 1 b), some (fieldAt 5 2 b), b⟩ else .error .badField := by
  simp only [batchOpenFrame, need_need]
  exact need_iff (by simp) _

theorem batchCloseFrame_eq (b : List Byte) :
    batchCloseFrame b = if b.length = 8 then .ok (BitVec.ofNat 64 (fieldAt 0 8 b)) else .error .badField := need_iff (by simp) _

theorem sequenceFrame_eq (b : List Byte) :
    sequenceFrame b = if b.length = 4 ∧ fieldAt 0 4 b ≠ 0 then .ok (fieldAt 0 4 b) else .error .badField := by
  simp only [sequenceFrame, need_need]
  exact need_iff (by simp) _

theorem emptyFrame_eq (b : List Byte) : emptyFrame b = if b = [] then .ok () else .error .badField := need_iff (by simp) _

theorem pinFrame_length {b : List Byte} (length : b.length ≠ 1) : pinFrame b = .error .badField := by
  simp [pinFrame, need, length]

theorem pinFrame_single (x : Byte) : pinFrame [x] = .ok x.toNat := congrArg Except.ok (fieldAt_single x)

/-! ## The fields of a step record (R75) -/

theorem bytesAt_bytesAt {i n m : Nat} (inside : i + n ≤ m) (off : Nat) (bs : List Byte) :
    bytesAt i n (bytesAt off m bs) = bytesAt (off + i) n bs := by
  simp only [bytesAt, List.drop_take, List.take_take, List.drop_drop]
  rw [Nat.min_eq_left (by omega)]

theorem fieldAt_bytesAt {i n m : Nat} (inside : i + n ≤ m) (off : Nat) (bs : List Byte) :
    fieldAt i n (bytesAt off m bs) = fieldAt (off + i) n bs := by
  rw [fieldAt, bytesAt_bytesAt inside, fieldAt]

theorem fieldAt_drop (i n off : Nat) (bs : List Byte) : fieldAt i n (bs.drop off) = fieldAt (off + i) n bs := by
  simp only [fieldAt, bytesAt, List.drop_drop]

theorem bytesAt_add (off a b : Nat) (bs : List Byte) : bytesAt off (a + b) bs = bytesAt off a bs ++ bytesAt (off + a) b bs := by
  simp only [bytesAt, List.take_add, List.drop_drop]

theorem length_bytesAt {off len : Nat} {bs : List Byte} (inside : off + len ≤ bs.length) : (bytesAt off len bs).length = len := by
  simp only [bytesAt, List.length_take, List.length_drop]
  omega

/-- A field of one byte within the payload is a byte of it. -/
theorem bytesAt_one {off : Nat} {bs : List Byte} (inside : off < bs.length) :
    ∃ x, bytesAt off 1 bs = [x] ∧ x.toNat = fieldAt off 1 bs := by
  obtain ⟨x, single⟩ := List.length_eq_one_iff.mp (length_bytesAt (off := off) (len := 1) (bs := bs) inside)
  exact ⟨x, single, by rw [fieldAt, single]; simp [beNat]⟩

/-- The field of an optional block, and what stands behind it (R203). -/
theorem optionalBlock_drop {α : Type} (present : Bool) (len off : Nat) (read : List Byte → Option α) (bs : List Byte) :
    optionalBlock present len read (bs.drop off) =
      (if present then (read (bytesAt off len bs)).map some else some none, bs.drop (off + if present then len else 0)) := by
  cases present
  · rfl
  · simp only [optionalBlock, if_true, bytesAt, List.drop_drop]

/-- An optional field passes where it is absent or its value is in range. -/
theorem optional_value {α : Type} {present : Bool} {o : Option α} {P : Prop} [Decidable P] {v : α}
    (value : present = true → o = if P then some v else none) :
    (if present then o.map some else some none) = if present = true → P then some (if present then some v else none) else none := by
  cases present
  · simp
  · by_cases range : P <;> simp [value rfl, range]

theorem of_ite_some {α : Type} {P : Prop} [Decidable P] {x y : α} (value : (if P then some x else none) = some y) : P ∧ x = y := by
  split at value
  · exact ⟨‹P›, Option.some.inj value⟩
  · cases value

theorem numberBlock_bytesAt {off : Nat} {bs : List Byte} (inside : off + 3 ≤ bs.length) :
    numberBlock (bytesAt off 3 bs) = if fieldAt off 3 bs ≠ 0 then some (fieldAt off 3 bs) else none :=
  ite_congr (propext (by rw [length_bytesAt inside]; simp [fieldAt])) (fun _ => rfl) fun _ => rfl

/-- A policy as its block spells it (R7). -/
def policyAt (off : Nat) (bs : List Byte) : Policy :=
  ⟨fieldAt off 2 bs, fieldAt (off + 2) 1 bs, fieldAt (off + 3) 2 bs, fieldAt (off + 5) 2 bs, fieldAt (off + 7) 1 bs,
    if fieldAt (off + 8) 1 bs = 0 then .carryOn else .restart⟩

theorem policyBlock_bytesAt {off : Nat} {bs : List Byte} (inside : off + 9 ≤ bs.length) :
    policyBlock (bytesAt off 9 bs) =
      if fieldAt off 2 bs ≠ 0 ∧ fieldAt (off + 8) 1 bs ≤ 1 then some (policyAt off bs) else none := by
  simp only [policyBlock, length_bytesAt inside, fieldAt_bytesAt (show 0 + 2 ≤ 9 by decide), fieldAt_bytesAt (show 2 + 1 ≤ 9 by decide),
    fieldAt_bytesAt (show 3 + 2 ≤ 9 by decide), fieldAt_bytesAt (show 5 + 2 ≤ 9 by decide), fieldAt_bytesAt (show 7 + 1 ≤ 9 by decide),
    fieldAt_bytesAt (show 8 + 1 ≤ 9 by decide), Nat.add_zero, policyAt]
  by_cases stride : fieldAt off 2 bs = 0
  · simp [stride]
  rcases Nat.lt_or_ge 1 (fieldAt (off + 8) 1 bs) with high | low
  · simp [stride, show ¬ fieldAt (off + 8) 1 bs = 0 by omega, show ¬ fieldAt (off + 8) 1 bs = 1 by omega, high]
  · by_cases zero : fieldAt (off + 8) 1 bs = 0
    · simp [stride, zero]
    · simp [stride, show fieldAt (off + 8) 1 bs = 1 by omega]

/-- A port map as its byte spells it. -/
def setsAt (off : Nat) (bs : List Byte) : PortSet := ⟨(bytesAt off 1 bs).any (·.getLsbD 0), (bytesAt off 1 bs).any (·.getLsbD 1)⟩

theorem portSetBlock_bytesAt {off : Nat} {bs : List Byte} (inside : off < bs.length) :
    portSetBlock (bytesAt off 1 bs) = if fieldAt off 1 bs ≤ 3 then some (setsAt off bs) else none := by
  obtain ⟨x, single, value⟩ := bytesAt_one inside
  simp only [portSetBlock, single, PortSet.decode, setsAt, List.any_cons, List.any_nil, Bool.or_false, ← value]
  exact ite_congr (propext Nat.lt_succ_iff) (fun _ => rfl) fun _ => rfl

/-- The empty map is the byte 0 (chapter 11). -/
theorem setsAt_eq_none_iff {off : Nat} {bs : List Byte} (inside : off < bs.length) (small : fieldAt off 1 bs ≤ 3) :
    setsAt off bs = .none ↔ fieldAt off 1 bs = 0 := by
  obtain ⟨x, single, value⟩ := bytesAt_one inside
  have bit0 : x.getLsbD 0 = decide (x.toNat % 2 = 1) := Nat.testBit_zero _
  have bit1 : x.getLsbD 1 = decide (x.toNat / 2 % 2 = 1) := by rw [BitVec.getLsbD, Nat.testBit_succ, Nat.testBit_zero]
  simp only [setsAt, single, List.any_cons, List.any_nil, Bool.or_false, PortSet.none, PortSet.mk.injEq, bit0, bit1,
    decide_eq_false_iff_not, ← value]
  omega

theorem userMapBlock_bytesAt {off : Nat} {bs : List Byte} (inside : off < bs.length) :
    userMapBlock (bytesAt off 1 bs) =
      if 1 ≤ fieldAt off 1 bs ∧ fieldAt off 1 bs ≤ 3 then some (setsAt off bs) else none := by
  rw [userMapBlock, portSetBlock_bytesAt inside]
  by_cases small : fieldAt off 1 bs ≤ 3
  · by_cases zero : fieldAt off 1 bs = 0
    · simp [zero, (setsAt_eq_none_iff inside small).mpr zero]
    · simp [small, mt (setsAt_eq_none_iff inside small).mp zero, Nat.one_le_iff_ne_zero.mpr zero]
  · simp [small]

/-- The define part of an INSTALL as its block spells it (R4, R75). -/
def defineAt (off : Nat) (bs : List Byte) : DefinePart :=
  ⟨if fieldAt off 1 bs = 1 then .issue else .accept, setsAt (off + 1) bs, setsAt (off + 2) bs⟩

theorem defineBlock_bytesAt {off : Nat} {bs : List Byte} (inside : off + 3 ≤ bs.length) :
    defineBlock (bytesAt off 3 bs) =
      if (fieldAt off 1 bs = 1 ∨ fieldAt off 1 bs = 2) ∧ 1 ≤ fieldAt (off + 1) 1 bs ∧ fieldAt (off + 1) 1 bs ≤ 3 ∧ fieldAt (off + 2) 1 bs ≤ 3
      then some (defineAt off bs) else none := by
  obtain ⟨r, role, roleValue⟩ := bytesAt_one (off := off) (bs := bs) (by omega)
  obtain ⟨u, user, userValue⟩ := bytesAt_one (off := off + 1) (bs := bs) (by omega)
  obtain ⟨n, notify, -⟩ := bytesAt_one (off := off + 2) (bs := bs) (by omega)
  have bytes : bytesAt off 3 bs = [r, u, n] := by
    rw [bytesAt_add off 1 2, bytesAt_add (off + 1) 1 1, role, user, notify]
    rfl
  have userMap : PortSet.decode u = if fieldAt (off + 1) 1 bs ≤ 3 then some (setsAt (off + 1) bs) else none := by
    rw [← portSetBlock_bytesAt (by omega), user]
    rfl
  have notifyMap : PortSet.decode n = if fieldAt (off + 2) 1 bs ≤ 3 then some (setsAt (off + 2) bs) else none := by
    rw [← portSetBlock_bytesAt (by omega), notify]
    rfl
  have isIssue : r = Role.issue.code ↔ fieldAt off 1 bs = 1 := by rw [← roleValue]; exact BitVec.toNat_inj.symm
  have isAccept : r = Role.accept.code ↔ fieldAt off 1 bs = 2 := by rw [← roleValue]; exact BitVec.toNat_inj.symm
  rw [bytes]
  simp only [defineBlock, userMap, notifyMap, isIssue, isAccept, defineAt]
  by_cases small : fieldAt (off + 1) 1 bs ≤ 3
  · by_cases low : fieldAt (off + 2) 1 bs ≤ 3
    · by_cases zero : fieldAt (off + 1) 1 bs = 0
      · simp [low, zero, (setsAt_eq_none_iff (by omega) small).mpr zero]
      · have someone : setsAt (off + 1) bs ≠ .none := mt (setsAt_eq_none_iff (by omega) small).mp zero
        by_cases issue : fieldAt off 1 bs = 1
        · simp [small, low, someone, issue, Nat.one_le_iff_ne_zero.mpr zero]
        · simp [small, low, someone, issue, Nat.one_le_iff_ne_zero.mpr zero]
    · simp [small, low]
  · simp [small]

/-! ## Step records (R75, R202) -/

/-- The part of a step of a kind that names a slot. -/
def stepFields (kind flags : Byte) (rest : List Byte) (slot : Fin 24) : Option StepPart :=
  match kind.toNat with
  | 1 => installPart slot flags (rest.drop 1)
  | 2 => policyPart slot flags (rest.drop 1)
  | 3 => some (.clear slot)
  | 4 => some (.endGrace slot)
  | _ => none

/-- The length, index and flags of a step record pass (R202). -/
def stepForm (index kind flags : Byte) (rest : List Byte) : Bool :=
  decide (stepLength kind flags rest = some (rest.length + 3)) && (decide (index.toNat ≤ 7) && stepFlagsAllowed kind flags)

section
variable (index kind flags : Byte) (rest : List Byte)

theorem batchStepFrame_cons :
    batchStepFrame (index :: kind :: flags :: rest) = need (stepForm index kind flags rest)
      ((stepPart kind flags rest).map fun part => ⟨index.toNat, flags.getLsbD 1, part, index :: kind :: flags :: rest⟩) := by
  simp only [batchStepFrame, need_need, stepForm, List.length_cons]
  cases stepPart kind flags rest <;> rfl

variable {index kind flags rest}

theorem batchStepFrame_of_form_false (fails : stepForm index kind flags rest = false) :
    batchStepFrame (index :: kind :: flags :: rest) = .error .badField := by
  rw [batchStepFrame_cons, fails]
  rfl

theorem stepPart_of_slotted (slotted : kind.toNat ≠ 5) :
    stepPart kind flags rest = need (flags.getLsbD 0) ((checkedSlot (fieldAt 0 1 rest)).bind fun slot =>
      match stepFields kind flags rest slot with
      | some part => .ok part
      | none => .error .badField) := by
  rw [stepPart, if_neg slotted]
  cases checkedSlot (fieldAt 0 1 rest) <;> rfl

/-- The answer of R202 to a step of a kind that names a slot: its form, then its slot byte, then the fields of its part. -/
theorem batchStepFrame_of_slotted {f ok : Prop} [Decidable ok] {part : Fin 24 → StepPart} (slotted : kind.toNat ≠ 5)
    (form : f ↔ stepForm index kind flags rest = true ∧ flags.getLsbD 0 = true)
    (fields : f → ∀ slot, stepFields kind flags rest slot = if ok then some (part slot) else none) :
    let b := index :: kind :: flags :: rest
    (¬ f → batchStepFrame b = .error .badField) ∧ (f → 24 ≤ fieldAt 0 1 rest → batchStepFrame b = .error .noSlot) ∧
    (f → ¬ ok → fieldAt 0 1 rest < 24 → batchStepFrame b = .error .badField) ∧
    (f → ok → ∀ h : fieldAt 0 1 rest < 24,
      batchStepFrame b = .ok ⟨index.toNat, flags.getLsbD 1, part ⟨fieldAt 0 1 rest, h⟩, b⟩) := by
  have frame := batchStepFrame_cons index kind flags rest
  rw [stepPart_of_slotted slotted] at frame
  refine ⟨fun other => ?_, fun passes high => ?_, fun passes bad low => ?_, fun passes good low => ?_⟩
  · rw [frame]
    by_cases shape : stepForm index kind flags rest = true
    · have named : flags.getLsbD 0 = false := Bool.eq_false_iff.mpr fun named => other (form.mpr ⟨shape, named⟩)
      rw [shape, named]
      rfl
    · simp [need, shape]
  all_goals
    obtain ⟨shape, named⟩ := form.mp passes
    simp only [frame, need, shape, named, if_true, checkedSlot]
  · simp [Nat.not_lt.mpr high, Except.bind, Except.map]
  · simp [low, Except.bind, fields passes, bad, Except.map]
  · simp [low, Except.bind, fields passes, good, Except.map]

/-! ## INSTALL and POLICY (R75) -/

variable (flags) in
/-- The bytes of an optional field. -/
def optionalSize (i n : Nat) : Nat := if flags.getLsbD i then n else 0

theorem optionalSize_of_present {i : Nat} (present : flags.getLsbD i = true) (n : Nat) : optionalSize flags i n = n := if_pos present

theorem optionalBlock_flag {α : Type} (i len off : Nat) (read : List Byte → Option α) :
    optionalBlock (flags.getLsbD i) len read (rest.drop off) =
      (if flags.getLsbD i then (read (bytesAt off len rest)).map some else some none, rest.drop (off + optionalSize flags i len)) :=
  optionalBlock_drop _ _ _ _ _

/-- What the fields of an INSTALL step have to be (R4, R7, R75). -/
def InstallFields (flags : Byte) (rest : List Byte) : Prop :=
  let budget := 27 + optionalSize flags 2 3
  let define := budget + optionalSize flags 3 3
  let policy := define + optionalSize flags 4 3
  fieldAt 1 2 rest ≠ 0 ∧ (flags.getLsbD 2 = true → fieldAt 27 3 rest ≠ 0) ∧ (flags.getLsbD 3 = true → fieldAt budget 3 rest ≠ 0) ∧
  (flags.getLsbD 4 = true → flags.getLsbD 5 = true ∧ (fieldAt define 1 rest = 1 ∨ fieldAt define 1 rest = 2) ∧
    1 ≤ fieldAt (define + 1) 1 rest ∧ fieldAt (define + 1) 1 rest ≤ 3 ∧ fieldAt (define + 2) 1 rest ≤ 3) ∧
  (flags.getLsbD 5 = true → fieldAt policy 2 rest ≠ 0 ∧ fieldAt (policy + 8) 1 rest ≤ 1)

theorem installPart_eq (slot : Fin 24) [Decidable (InstallFields flags rest)]
    (length : rest.length = 27 + optionalSize flags 2 3 + optionalSize flags 3 3 + optionalSize flags 4 3 + optionalSize flags 5 9) :
    installPart slot flags (rest.drop 1) = if InstallFields flags rest then
      let budget := 27 + optionalSize flags 2 3
      let define := budget + optionalSize flags 3 3
      let policy := define + optionalSize flags 4 3
      some (.install slot (fieldAt 1 2 rest) (BitVec.ofNat 192 (fieldAt 3 24 rest))
        (if flags.getLsbD 2 then some (fieldAt 27 3 rest) else none) (if flags.getLsbD 3 then some (fieldAt budget 3 rest) else none)
        (if flags.getLsbD 4 then some (defineAt define rest) else none) (if flags.getLsbD 5 then some (policyAt policy rest) else none))
      else none := by
  have life := optional_value (present := flags.getLsbD 2) fun present =>
    numberBlock_bytesAt (off := 27) (bs := rest) (by have := optionalSize_of_present present 3; omega)
  have budget := optional_value (present := flags.getLsbD 3) fun present =>
    numberBlock_bytesAt (off := 27 + optionalSize flags 2 3) (bs := rest) (by have := optionalSize_of_present present 3; omega)
  have define := optional_value (present := flags.getLsbD 4) fun present =>
    defineBlock_bytesAt (off := 27 + optionalSize flags 2 3 + optionalSize flags 3 3) (bs := rest)
      (by have := optionalSize_of_present present 3; omega)
  have policy := optional_value (present := flags.getLsbD 5) fun present =>
    policyBlock_bytesAt (off := 27 + optionalSize flags 2 3 + optionalSize flags 3 3 + optionalSize flags 4 3) (bs := rest)
      (by have := optionalSize_of_present present 9; omega)
  simp only [installPart, fieldAt_drop, List.drop_drop, Nat.reduceAdd, optionalBlock_flag, life, budget, define, policy]
  by_cases pass : InstallFields flags rest
  · have ⟨generation, lifeOk, budgetOk, defineOk, policyOk⟩ := pass
    have together : ∀ (d : DefinePart) (y : Policy), ((if flags.getLsbD 4 then some d else none).isSome &&
        (if flags.getLsbD 5 then some y else none).isNone) = false := fun d y => by
      cases defined : flags.getLsbD 4
      · rfl
      · rw [(defineOk defined).1]
        rfl
    rw [if_pos pass, if_neg generation, if_pos lifeOk, if_pos budgetOk,
      if_pos fun defined => (defineOk defined).2, if_pos policyOk]
    simp only [together]
    rfl
  · rw [if_neg pass]
    split
    · rfl
    next generation =>
    split
    next lifeEq budgetEq defineEq policyEq =>
      obtain ⟨lifeOk, -⟩ := of_ite_some lifeEq
      obtain ⟨budgetOk, -⟩ := of_ite_some budgetEq
      obtain ⟨defineOk, rfl⟩ := of_ite_some defineEq
      obtain ⟨policyOk, rfl⟩ := of_ite_some policyEq
      refine if_pos (Classical.byContradiction fun apart => ?_)
      refine pass ⟨generation, lifeOk, budgetOk, fun defined => ⟨Classical.byContradiction fun bare => apart ?_, defineOk defined⟩, policyOk⟩
      rw [if_pos defined, if_neg bare]
      rfl
    · rfl

/-- What the fields of a POLICY step have to be (R7, R75). -/
def PolicyFields (flags : Byte) (rest : List Byte) : Prop :=
  let user := 1 + optionalSize flags 5 9
  let notify := user + optionalSize flags 6 1
  flags.getLsbD 5 = true ∧ (fieldAt 1 2 rest ≠ 0 ∧ fieldAt 9 1 rest ≤ 1) ∧
  (flags.getLsbD 6 = true → 1 ≤ fieldAt user 1 rest ∧ fieldAt user 1 rest ≤ 3) ∧ (flags.getLsbD 7 = true → fieldAt notify 1 rest ≤ 3)

theorem policyPart_eq (slot : Fin 24) [Decidable (PolicyFields flags rest)]
    (length : rest.length = 1 + optionalSize flags 5 9 + optionalSize flags 6 1 + optionalSize flags 7 1) :
    policyPart slot flags (rest.drop 1) = if PolicyFields flags rest then
      let user := 1 + optionalSize flags 5 9
      let notify := user + optionalSize flags 6 1
      some (.policy slot (policyAt 1 rest) (if flags.getLsbD 6 then some (setsAt user rest) else none)
        (if flags.getLsbD 7 then some (setsAt notify rest) else none))
      else none := by
  have policy := optional_value (present := flags.getLsbD 5) fun present =>
    policyBlock_bytesAt (off := 1) (bs := rest) (by have := optionalSize_of_present present 9; omega)
  have user := optional_value (present := flags.getLsbD 6) fun present =>
    userMapBlock_bytesAt (off := 1 + optionalSize flags 5 9) (bs := rest) (by have := optionalSize_of_present present 1; omega)
  have notify := optional_value (present := flags.getLsbD 7) fun present =>
    portSetBlock_bytesAt (off := 1 + optionalSize flags 5 9 + optionalSize flags 6 1) (bs := rest)
      (by have := optionalSize_of_present present 1; omega)
  simp only [policyPart, optionalBlock_flag, policy, user, notify]
  by_cases pass : PolicyFields flags rest
  · have ⟨present, policyOk, userOk, notifyOk⟩ := pass
    rw [if_pos pass, if_pos fun _ => policyOk, if_pos userOk, if_pos notifyOk, if_pos present]
  · rw [if_neg pass]
    split
    next policyEq userEq notifyEq =>
      obtain ⟨policyOk, given⟩ := of_ite_some policyEq
      have present : flags.getLsbD 5 = true := (of_ite_some given).1
      exact absurd ⟨present, policyOk present, (of_ite_some userEq).1, (of_ite_some notifyEq).1⟩ pass
    · rfl

/-! ## The form of each kind (R75, chapter 11) -/

theorem stepForm_iff (n : Nat) {allowed : Prop} (length : flags.getLsbD 0 = true → stepLength kind flags rest = some (n + 3))
    (clear : stepFlagsAllowed kind flags = true ↔ allowed) :
    index.toNat ≤ 7 ∧ flags.getLsbD 0 = true ∧ allowed ∧ rest.length = n ↔
      stepForm index kind flags rest = true ∧ flags.getLsbD 0 = true := by
  rw [stepForm, Bool.and_eq_true, Bool.and_eq_true, decide_eq_true_eq, decide_eq_true_eq, clear]
  constructor
  · rintro ⟨low, named, stray, size⟩
    exact ⟨⟨by rw [length named, size], low, stray⟩, named⟩
  · rintro ⟨⟨size, low, stray⟩, named⟩
    rw [length named, Option.some.injEq] at size
    exact ⟨low, named, stray, by omega⟩

theorem install_form :
    index.toNat ≤ 7 ∧ flags.getLsbD 0 = true ∧ (∀ i ∈ [6, 7], flags.getLsbD i = false) ∧
      rest.length = 27 + optionalSize flags 2 3 + optionalSize flags 3 3 + optionalSize flags 4 3 + optionalSize flags 5 9 ↔
    stepForm index 0x01 flags rest = true ∧ flags.getLsbD 0 = true := by
  refine stepForm_iff _ (fun named => ?_) (by simp [stepFlagsAllowed])
  have head := optionalSize_of_present named 1
  exact congrArg some (show 3 + optionalSize flags 0 1 + 26 + optionalSize flags 2 3 + optionalSize flags 3 3 + optionalSize flags 4 3 +
    optionalSize flags 5 9 = _ by omega)

theorem policy_form :
    index.toNat ≤ 7 ∧ flags.getLsbD 0 = true ∧ (∀ i ∈ [2, 3, 4], flags.getLsbD i = false) ∧
      rest.length = 1 + optionalSize flags 5 9 + optionalSize flags 6 1 + optionalSize flags 7 1 ↔
    stepForm index 0x02 flags rest = true ∧ flags.getLsbD 0 = true := by
  refine stepForm_iff _ (fun named => ?_) (by simp [stepFlagsAllowed])
  have head := optionalSize_of_present named 1
  exact congrArg some (show 3 + optionalSize flags 0 1 + optionalSize flags 5 9 + optionalSize flags 6 1 + optionalSize flags 7 1 = _ by omega)

/-- CLEAR and END_GRACE carry a slot byte alone. -/
theorem bare_form (bare : kind = 0x03 ∨ kind = 0x04) :
    index.toNat ≤ 7 ∧ flags.getLsbD 0 = true ∧ (∀ i ∈ [2, 3, 4, 5, 6, 7], flags.getLsbD i = false) ∧ rest.length = 1 ↔
    stepForm index kind flags rest = true ∧ flags.getLsbD 0 = true := by
  rcases bare with rfl | rfl <;>
  · refine stepForm_iff _ (fun named => ?_) (by simp [stepFlagsAllowed])
    exact congrArg some (show 3 + optionalSize flags 0 1 = _ from congrArg (3 + ·) (optionalSize_of_present named 1))

/-! ## LIFECYCLE (R75) -/

/-- The index and the flags that a LIFECYCLE step may carry. -/
def LifecycleForm (index flags : Byte) : Prop := index.toNat ≤ 7 ∧ ∀ i ∈ [0, 2, 3, 4, 5, 6, 7], flags.getLsbD i = false

theorem lifecycleForm_of_stepForm (form : stepForm index 0x05 flags rest = true) : LifecycleForm index flags := by
  rw [stepForm, Bool.and_eq_true, Bool.and_eq_true, decide_eq_true_eq, decide_eq_true_eq] at form
  obtain ⟨-, low, allowed⟩ := form
  exact ⟨low, by simpa [stepFlagsAllowed] using allowed⟩

theorem stepForm_of_lifecycle (plain : LifecycleForm index flags)
    (length : rest.length = if rest.headD 0 = LifeCycle.operational.code then 2 else 1) : stepForm index 0x05 flags rest = true := by
  obtain ⟨low, clear⟩ := plain
  have bare : optionalSize flags 0 1 = 0 := if_neg (Bool.eq_false_iff.mp (clear 0 (by decide)))
  have size : stepLength 0x05 flags rest = some (rest.length + 3) := congrArg some
    (show 3 + optionalSize flags 0 1 + (if rest.headD 0 = LifeCycle.operational.code then 2 else 1) = _ by omega)
  have allowed : stepFlagsAllowed 0x05 flags = true := by simpa [stepFlagsAllowed] using clear
  rw [stepForm, size, allowed, decide_eq_true rfl, decide_eq_true low]
  rfl

theorem stepPart_lifecycle {part : StepPart} (given : lifecyclePart rest = some part) : stepPart 0x05 flags rest = .ok part := by
  rw [stepPart, if_pos (by decide), given]

theorem lifecyclePart_none (retired : rest ≠ [0x02]) (operational : ∀ c, rest = [0x01, c] → 7 < c.toNat) : lifecyclePart rest = none := by
  unfold lifecyclePart
  split
  next t c =>
    refine if_neg fun ⟨target, code⟩ => ?_
    have := operational c (by rw [target]; rfl)
    omega
  next t => exact if_neg fun target => retired (by rw [target]; rfl)
  next => rfl

theorem batchStepFrame_of_lifecycle {part : StepPart} (plain : LifecycleForm index flags)
    (length : rest.length = if rest.headD 0 = LifeCycle.operational.code then 2 else 1) (given : lifecyclePart rest = some part) :
    batchStepFrame (index :: 0x05 :: flags :: rest) = .ok ⟨index.toNat, flags.getLsbD 1, part, index :: 0x05 :: flags :: rest⟩ := by
  rw [batchStepFrame_cons, stepForm_of_lifecycle plain length, stepPart_lifecycle given]
  rfl

theorem batchStepFrame_of_not_lifecycle
    (other : ¬ LifecycleForm index flags ∨ (rest ≠ [0x02] ∧ ∀ c, rest = [0x01, c] → 7 < c.toNat)) :
    batchStepFrame (index :: 0x05 :: flags :: rest) = .error .badField := by
  rcases other with stray | ⟨retired, operational⟩
  · exact batchStepFrame_of_form_false (Bool.eq_false_iff.mpr fun form => stray (lifecycleForm_of_stepForm form))
  · have bad : stepPart 0x05 flags rest = .error .badField := by
      rw [stepPart, if_pos (by decide), lifecyclePart_none retired operational]
    rw [batchStepFrame_cons, bad]
    cases stepForm index 0x05 flags rest <;> rfl

theorem stepForm_of_kind_none (kind0 : kind.toNat = 0 ∨ 5 < kind.toNat) : stepForm index kind flags rest = false := by
  have none : stepLength kind flags rest = .none := by
    unfold stepLength
    dsimp only
    split
    case h_6 => rfl
    all_goals omega
  simp [stepForm, none]

end

/-! ## A frame refused at its take -/

/-- Settles O25: a refused frame is answered by `atStop_refused`; the layouts are the equations of the frame functions, and those of
BATCH_STEP go by the kind of the step. -/
theorem frameChecksComeFirst : Obligations.FrameChecksComeFirst := by
  constructor
  · intro p s e rest b
    have refused {α : Type} {code : Byte} {read : List Byte → Checked α} {is : Byte → Bool} (names : is code = true)
        (work : State → α → State) (holds : s.Holds p code) (frame : read b = .error e) :
        Host.Outcome.next (s.atStop p is fun t => t.checked p (read (t.payload p)) (work t)) =
          (.next (s.answered p e []) : Host.Outcome State Fault Refusal) :=
      congrArg Host.Outcome.next (atStop_refused holds rest names frame work)
    exact ⟨refused (by decide) _, refused (by decide) _, refused (by decide) _, refused (by decide) _, refused (by decide) _,
      refused (by decide) _, refused (by decide) _, refused (by decide) _, refused (by decide) _, refused (by decide) _,
      refused (by decide) _, refused (by decide) _, refused (by decide) _⟩
  intro b k bad
  refine ⟨makeTagFrame_eq b, checkTagFrame_eq b, fun length => ⟨pinFrame_length length, slotStatusFrame_length length⟩,
    fun x single => ?_, emptyFrame_eq b, batchOpenFrame_eq b, batchCloseFrame_eq b, sequenceFrame_eq b, fun short => ?_, ?_⟩
  · rw [single]
    exact ⟨pinFrame_single x, slotStatusFrame_single x⟩
  · match b, (show b.length < 3 from short) with
    | [], _ => rfl
    | [_], _ => rfl
    | [_, _], _ => rfl
  rintro index kind flags rest rfl has size form sets policyOk policyAt answers
  classical
  refine ⟨fun other => batchStepFrame_of_form_false (stepForm_of_kind_none other), ?_, ?_, ?_, ?_, ?_⟩
  · rintro rfl life budget define policy ok
    exact batchStepFrame_of_slotted (kind := 0x01) (ok := InstallFields flags rest) (by decide) install_form fun passes slot =>
      installPart_eq slot passes.2.2.2
  · rintro rfl user notify ok
    exact batchStepFrame_of_slotted (kind := 0x02) (ok := PolicyFields flags rest) (by decide) policy_form fun passes slot =>
      policyPart_eq slot passes.2.2.2
  · rintro rfl
    exact batchStepFrame_of_slotted (kind := 0x03) (ok := True) (by decide) (bare_form (.inl rfl)) fun _ _ => rfl
  · rintro rfl
    exact batchStepFrame_of_slotted (kind := 0x04) (ok := True) (by decide) (bare_form (.inr rfl)) fun _ _ => rfl
  · rintro rfl plain
    refine ⟨fun c form given low => ?_, fun form given => ?_, batchStepFrame_of_not_lifecycle⟩
    · exact batchStepFrame_of_lifecycle form (by rw [given]; rfl) (by rw [given]; exact if_pos ⟨rfl, low⟩)
    · exact batchStepFrame_of_lifecycle form (by rw [given]; rfl) (by rw [given]; rfl)

end Sys2Proof.Machine
end

section
/-! PROOFS. The engine arbiter (chapter 3): the order of its grants, and the key commands granted as they are taken: MAKE_TAG that passes its
checks, CHECK_TAG, PIN and UNPIN. -/

namespace Sys2Proof.Machine

section
variable {s : State} {p : Port}

/-! ## What an operation leaves of the arbiter at its grant (R64) -/

/-- The commit start test of an UNPIN is all that an operation does to the arbiter at its grant (R18, R105). -/
theorem enter_arbiter (s : State) (p : Port) : ∃ hold, (s.enter p).arbiter = { s.arbiter with hold := hold } := by
  have same {t : State} (e : t.arbiter = s.arbiter) : ∃ hold, t.arbiter = { s.arbiter with hold := hold } := ⟨s.arbiter.hold, e⟩
  unfold State.enter
  split
  · unfold State.enterMakeTag
    split
    · exact same (by simp)
    · split
      · exact same rfl
      · exact same (issueStep_arbiter s p _ _)
  · unfold State.enterCheckTag
    split
    · exact same (by simp)
    · split
      · exact same rfl
      · split
        · exact same (by simp)
        · split
          · exact same (by simp)
          · exact same rfl
  · unfold State.enterPin
    split
    · exact same (by simp)
    · split
      · exact same (by simp)
      · exact same (by simp)
  · unfold State.enterUnpin
    split
    · exact same (by simp)
    · rcases State.commitStart_hold (s := (s.setSlot _ _).complete p .ok []) with stays | ⟨-, -, -, -, requested⟩
      · exact same (stays.trans (by simp))
      · exact ⟨.requested, requested.trans (by simp)⟩
  · exact same rfl
  · exact same rfl

/-! ## The grants in their order (R64 to R67) -/

section
variable (free : s.engine = none)
include free

theorem grant_of_resumed (held : s.arbiter.hold ≠ .granted) {r : Resumed} {rest : List Resumed} (resumed : s.arbiter.resumed = r :: rest) :
    s.grant = some (State.grantResumed { s with arbiter := { s.arbiter with resumed := rest } } r) := by
  rw [State.grant, if_neg (by simp [free, held]), resumed]

variable (resumed : s.arbiter.resumed = [])
include resumed

theorem grant_of_checking {x : CheckInput} (hold : s.arbiter.hold = .none) (checking : s.arbiter.checking = some x)
    (turn : s.arbiter.passed = 2 ∨ (s.arbiter.waitM = false ∧ s.arbiter.waitL = false)) : s.grant = some (s.grantChecking x) := by
  rw [State.grant, if_neg (by simp [free, hold]), resumed]
  by_cases passed : s.arbiter.passed = 2
  · simp [hold, checking, passed]
  · obtain ⟨waitM, waitL⟩ := turn.resolve_left passed
    simp [hold, checking, passed, Arbiter.nextPort, waitM, waitL]

theorem grant_of_port (hold : s.arbiter.hold = .none) (checking : s.arbiter.checking = none ∨ s.arbiter.passed < 2)
    (next : s.arbiter.nextPort = some p) : s.grant = some (s.grantPort p) := by
  rw [State.grant, if_neg (by simp [free, hold]), resumed]
  cases waits : s.arbiter.checking with
  | none => simp [hold, next]
  | some x =>
    have passed : s.arbiter.passed ≠ 2 := by
      rcases checking with none | few
      · simp [none] at waits
      · omega
    simp [hold, next, passed]

end

/-- The port that a port grant takes (R65). -/
theorem nextPort_eq_some {a : Arbiter}
    (waits : (a.waiting p = true ∧ a.waiting p.other = false) ∨ (a.waitM = true ∧ a.waitL = true ∧ a.turn = p.other)) :
    a.nextPort = some p := by
  rcases waits with ⟨own, other⟩ | ⟨waitM, waitL, turn⟩
  · cases p <;> simp only [Arbiter.waiting, Port.other] at own other <;> simp [Arbiter.nextPort, own, other]
  · cases p <;> simp [Arbiter.nextPort, waitM, waitL, turn, Port.other]

/-- A port's request granted: the turn record takes the port, and the request waits no longer (R65, R66). -/
theorem grantPort_arbiter (s : State) (p : Port) :
    (s.grantPort p).arbiter.turn = p ∧ (s.grantPort p).arbiter.waiting p = false ∧
    (s.grantPort p).arbiter.waiting p.other = s.arbiter.waiting p.other ∧
    (s.grantPort p).arbiter.passed = if s.arbiter.checking.isSome then min 2 (s.arbiter.passed + 1) else s.arbiter.passed := by
  unfold State.grantPort
  dsimp only
  generalize arbiter : ({ s.arbiter.setWaiting p false with turn := p, passed := _ } : Arbiter) = a
  obtain ⟨hold, entered⟩ := enter_arbiter { s with arbiter := a } p
  rw [entered, ← arbiter]
  cases p <;> exact ⟨rfl, rfl, rfl, rfl⟩

end

/-- Settles O40: one grant for each case of the table of R64, and none where its table has none. -/
theorem arbiterGrants : Obligations.ArbiterGrants := by
  intro s a
  refine ⟨fun busy => (grant_eq_none_iff s).mpr (busy.imp_right .inl), fun free held => ⟨fun r rest resumed => ?_, fun resumed => ?_⟩⟩
  · refine ⟨_, grant_of_resumed free held resumed, ?_⟩
    generalize unlisted : ({ s with arbiter := { s.arbiter with resumed := rest } } : State) = u
    have arbiter : ∃ hold, (u.grantResumed r).arbiter = { u.arbiter with hold := hold } := by
      unfold State.grantResumed
      split
      · exact ⟨u.arbiter.hold, by simp⟩
      · exact enter_arbiter u _
    obtain ⟨hold, arbiter⟩ := arbiter
    rw [arbiter, ← unlisted]
    refine ⟨rfl, rfl, rfl, fun position g accepted => ?_, fun anew => ?_⟩
    · rw [State.grantResumed, accepted]
      cases position <;> rfl
    · rw [State.grantResumed, anew]
  refine ⟨fun requested m l => ?_, fun requested charge checking => ?_, fun x hold checking turn => ?_,
    fun p hold checking waits => ?_, fun hold checking waitM waitL => ?_⟩
  · refine ⟨_, grant_of_requested_hold free resumed requested fun x => by cases x <;> assumption, ?_⟩
    exact ⟨by simp [State.grantHold, a], by simp [State.grantHold]⟩
  · refine (grant_eq_none_iff s).mpr (.inr (.inr ⟨resumed, fun ⟨_, m, l⟩ => ?_, checking, .inr ?_⟩))
    · rcases charge with charged | charged
      · simp [m] at charged
      · simp [l] at charged
    · rw [show s.arbiter.hold = .requested from requested]
      decide
  · exact ⟨_, grant_of_checking free resumed hold checking turn, rfl, _, rfl⟩
  · obtain ⟨turn, own, other, passed⟩ := grantPort_arbiter s p
    refine ⟨_, grant_of_port free resumed hold checking (nextPort_eq_some waits), turn, own, other, passed.trans ?_, _, rfl⟩
    split
    next waiting =>
      have few : s.arbiter.passed < 2 := checking.resolve_left (Option.isSome_iff_ne_none.mp waiting)
      exact Nat.min_eq_right few
    next => rfl
  · exact grant_none_of_no_requester resumed hold waitM waitL checking

/-! ## A key command granted as it is taken (R64, R194) -/

/-- More grants than the arbiter has work make no difference. -/
theorem grants_of_enough {n m : Nat} (s : State) (enough : s.arbiter.work ≤ n) (more : n ≤ m) : State.grants m s = State.grants n s := by
  induction n generalizing s m with
  | zero => exact grants_of_grant_none m (grants_grant_none s 0 enough)
  | succ n ih =>
    obtain ⟨m, rfl⟩ : ∃ k, m = k + 1 := ⟨m - 1, by omega⟩
    rw [State.grants, State.grants]
    cases granted : s.grant with
    | none => rfl
    | some t => exact ih t (by have := grant_work s granted; omega) (by omega)

/-- The state in which port `p` has its request granted at the event at which it was taken (R65, R194). -/
def State.granted (s : State) (p : Port) (q : Request) : State := (s.setPort p ((s.port p).inFlight q)).turnTo p

section
variable {s : State} {p : Port} {code : Byte} {q : Request}

theorem granted_slot (i : Fin 24) : (s.granted p q).slot i = s.slot i := s.setPort_slot p _ i

theorem granted_supply : (s.granted p q).supply = s.supply := s.setPort_supply p _

theorem granted_port : (s.granted p q).port p = (s.port p).inFlight q := by cases p <;> rfl

theorem State.EngineIdle.granted (idle : s.EngineIdle) : (s.granted p q).EngineIdle := by cases p <;> exact idle

/-- The event of a key command on an idle engine: what the operation does at its grant, and the grants that this allows (R64). -/
theorem settle_handToArbiter_idle (idle : s.EngineIdle) (q : Request) :
    ((s.frameTaken p).handToArbiter p q).settle = ((s.granted p q).enter p).settle := by
  obtain ⟨-, resumed, hold, waitM, waitL, checking⟩ := idle.granted (p := p) (q := q)
  have few : ((s.granted p q).enter p).arbiter.work ≤ 5 := by
    have idle : (s.granted p q).arbiter.work = 2 := by
      simp only [Arbiter.work, resumed, hold, waitM, waitL, checking, Hold.ahead, List.length_nil, Option.isSome_none, Bool.toNat_false]
    have := enter_work (s.granted p q) p
    omega
  have none : ((s.frameTaken p).handToArbiter p q).arbiter.resumed = [] := by
    rw [← idle.2.1]
    cases p <;> rfl
  rw [State.settle, State.settle, none, List.length_nil, show (0 + 6 : Nat) = 5 + 1 from rfl, State.grants, grant_handToArbiter p q idle,
    grants_of_enough (n := 5) (m := _ + 6) _ few (by omega)]
  rfl

/-- A key command on an idle engine whose frame passes R202. -/
theorem atStop_keyCommand {α : Type} {is : Byte → Bool} (holds : s.Holds p code) (names : is code = true) (idle : s.EngineIdle)
    {read : List Byte → Checked α} {x : α} (frame : read (s.payload p) = .ok x) (request : α → Request) :
    s.atStop p is (fun t => t.checked p (read (t.payload p)) fun a => t.handToArbiter p (request a)) =
      ((s.granted p (request x)).enter p).settle := by
  rw [atStop_of_holds _ holds names, frameTaken_payload, frame]
  exact settle_handToArbiter_idle idle _

/-- A request in flight completed at its grant. -/
theorem complete_granted (s : State) (p : Port) (q : Request) (st : Status) (b : List Byte) :
    (s.granted p q).complete p st b = (s.answered p st b).turnTo p := by
  cases p <;>
    simp [State.granted, State.complete, State.turnTo, State.setPort, State.port, State.answered, PortRecord.answered,
      PortRecord.inFlight, PortRecord.completed]

theorem granted_setSlot (i : Fin 24) (c : Slot) : (s.granted p q).setSlot i c = (s.setSlot i c).granted p q := by cases p <;> rfl

variable {t : State}

/-- An idle engine that is still idle leaves nothing to grant. -/
theorem State.EngineIdle.settle (idle : s.EngineIdle) (run : s.supply.run ≠ .flush) : s.settle = s :=
  settle_of_atRest ⟨idle.grant_none, run⟩

theorem settle_answered (idle : s.EngineIdle) (run : s.supply.run ≠ .flush) (st : Status) (b : List Byte) :
    ((s.answered p st b).turnTo p).settle = (s.answered p st b).turnTo p := settle_of_atRest (idle.atRest_answered run st b)

/-- A key command refused at its grant (R59, R65). -/
theorem settle_refused (idle : s.EngineIdle) (run : s.supply.run ≠ .flush) {e : Status}
    (refused : (s.granted p q).enter p = (s.granted p q).refuse p e) :
    ((s.granted p q).enter p).settle = (s.answered p e []).turnTo p := by
  rw [refused, State.refuse, complete_granted, settle_answered idle run]

end

/-! ## PIN (R15, R16) -/

section
variable {s : State} {p : Port} {q : Request}

theorem pinChecks_granted (slot : Nat) : (s.granted p q).pinChecks p slot = s.pinChecks p slot := by cases p <;> rfl

theorem enterPin_refused {slot : Nat} {e : Status} (fails : s.pinChecks p slot = .error e) :
    (s.granted p (.pin slot)).enter p = (s.granted p (.pin slot)).refuse p e := by
  rw [State.enter, granted_port]
  simp only [PortRecord.inFlight]
  rw [State.enterPin, pinChecks_granted, fails]

theorem pinChecks_retired (life : s.supply.lifeCycle = .retired) (slot : Nat) : s.pinChecks p slot = .error .retired := if_pos life

theorem pinChecks_fault (life : s.supply.lifeCycle ≠ .retired) (run : s.supply.run = .fault) (slot : Nat) :
    s.pinChecks p slot = .error .fault := by rw [State.pinChecks, if_neg life, if_pos run]

variable (life : s.supply.lifeCycle ≠ .retired) (run : s.supply.run ≠ .fault)
include life run

theorem pinChecks_noSlot {slot : Nat} (above : 24 ≤ slot) : s.pinChecks p slot = .error .noSlot := by
  simp [State.pinChecks, life, run, slotIndex_of_le above]

variable {i : Fin 24}

theorem pinChecks_wrongRole (role : ¬ ((s.slot i).role = .issue ∨ (s.slot i).role = .accept)) :
    s.pinChecks p i = .error .wrongRole := by
  simp [State.pinChecks, life, run, not_or.mp role]

variable (role : (s.slot i).role = .issue ∨ (s.slot i).role = .accept)
include role

theorem pinChecks_notUser (user : (s.slot i).userMap.has p = false) : s.pinChecks p i = .error .notUser := by
  have usable : ¬ ((s.slot i).role ≠ .issue ∧ (s.slot i).role ≠ .accept) := by rwa [Classical.not_and_iff_not_or_not, Classical.not_not, Classical.not_not]
  simp only [State.pinChecks, life, run, slotIndex_val, usable, user, if_false, if_true]

variable (user : (s.slot i).userMap.has p = true)
include user

theorem pinChecks_noKey (cell : ∀ k ∈ (s.slot i).current, k.state ≠ .live) : s.pinChecks p i = .error .noKey := by
  have usable : ¬ ((s.slot i).role ≠ .issue ∧ (s.slot i).role ≠ .accept) := by rwa [Classical.not_and_iff_not_or_not, Classical.not_not, Classical.not_not]
  cases current : (s.slot i).current with
  | none => simp only [State.pinChecks, life, run, slotIndex_val, usable, user, current, if_false, Bool.true_eq_false]
  | some k =>
    have ended := cell k current
    simp only [State.pinChecks, life, run, slotIndex_val, usable, user, current, if_false, Bool.true_eq_false, ended, ne_eq, not_false_eq_true,
      if_true]

/-- Past the checks of the cell, those of the policy, the batch and the pin (R15). -/
theorem pinChecks_of_live {k : Current} {y : Policy} (current : (s.slot i).current = some k) (live : k.state = .live)
    (policy : (s.slot i).policy = some y) :
    s.pinChecks p i = if y.pinTicks = 0 then .error .notPinnable
      else if s.activationDue i then .error .activationDue
      else if (s.slot i).pin.any (fun h => decide (h.holder ≠ p)) then .error .pinnedElsewhere
      else .ok (i, k, y.pinTicks) := by
  have usable : ¬ ((s.slot i).role ≠ .issue ∧ (s.slot i).role ≠ .accept) := by rwa [Classical.not_and_iff_not_or_not, Classical.not_not, Classical.not_not]
  simp only [State.pinChecks, life, run, slotIndex_val, usable, user, current, policy, live, if_false, Bool.true_eq_false, ne_eq,
    not_true_eq_false]

end

/-- Settles O46: each clause is the check of `State.pinChecks` that its hypotheses reach, or what `State.enterPin` does past them. -/
theorem pinTable : Obligations.PinTable := by
  intro p s slot holds idle flush frame refused
  have event : exec (.pin p) s = .next ((s.granted p (.pin slot)).enter p).settle :=
    congrArg Host.Outcome.next (atStop_keyCommand holds (by decide) idle frame _)
  have refuses {e : Status} (fails : s.pinChecks p slot = .error e) : refused e := by
    refine event.trans (congrArg Host.Outcome.next ?_)
    exact settle_refused idle flush (enterPin_refused fails)
  refine ⟨fun life => refuses (pinChecks_retired life _), fun life run => refuses (pinChecks_fault life run _),
    fun life run above => refuses (pinChecks_noSlot life run above), ?_⟩
  rintro i life run rfl usable
  refine ⟨fun role => refuses (pinChecks_wrongRole life run role), fun role user => refuses (pinChecks_notUser life run role user),
    fun role user cell => refuses (pinChecks_noKey life run role user cell), fun k y role user current live policy => ?_⟩
  have checks := pinChecks_of_live life run role user current live policy
  have passes (ticks : y.pinTicks ≠ 0) (due : s.activationDue i = false)
      (own : ((s.slot i).pin.any fun h => decide (h.holder ≠ p)) = false) : s.pinChecks p i = .ok (i, k, y.pinTicks) := by
    rw [checks, if_neg ticks, if_neg (Bool.eq_false_iff.mp due), if_neg (Bool.eq_false_iff.mp own)]
  have entered : (s.granted p (.pin i)).enter p = (s.granted p (.pin i)).enterPin p i := by
    rw [State.enter, granted_port]
    rfl
  refine ⟨fun none => refuses (by rw [checks, if_pos none]), fun ticks due => refuses (by rw [checks, if_neg ticks, if_pos due]),
    fun h ticks due pin other => refuses ?_, fun h ticks due pin own => ?_, fun ticks due pin => ?_⟩
  · rw [checks, if_neg ticks, if_neg (by simp [due]), if_pos (by simp [pin, other])]
  · rw [event, entered, State.enterPin, pinChecks_granted, passes ticks due (by simp [pin, own])]
    simp only [granted_slot, pin]
    rw [complete_granted, settle_answered idle flush]
    rfl
  · rw [event, entered, State.enterPin, pinChecks_granted, passes ticks due (by simp [pin])]
    simp only [granted_slot, pin]
    have now : (s.granted p (.pin i)).now = s.time.t := congrArg TimeBase.t (s.setPort_time p _)
    have still : (s.setSlot i { s.slot i with pin := some ⟨p, k.generation, s.time.t + y.pinTicks⟩ }).EngineIdle := idle
    rw [now, granted_setSlot, complete_granted, settle_answered still flush]
    rfl

/-! ## UNPIN (R18) -/

section
variable {s : State} {p : Port}

theorem unpinChecks_granted (q : Request) (slot : Nat) : (s.granted p q).unpinChecks p slot = s.unpinChecks p slot := by cases p <;> rfl

theorem enter_unpin (s : State) (p : Port) (slot : Nat) :
    (s.granted p (.unpin slot)).enter p = (s.granted p (.unpin slot)).enterUnpin p slot := by
  rw [State.enter, granted_port]
  rfl

theorem unpinChecks_retired (life : s.supply.lifeCycle = .retired) (slot : Nat) : s.unpinChecks p slot = .error .retired := if_pos life

theorem unpinChecks_fault (life : s.supply.lifeCycle ≠ .retired) (run : s.supply.run = .fault) (slot : Nat) :
    s.unpinChecks p slot = .error .fault := by rw [State.unpinChecks, if_neg life, if_pos run]

variable (life : s.supply.lifeCycle ≠ .retired) (run : s.supply.run ≠ .fault)
include life run

theorem unpinChecks_noSlot {slot : Nat} (above : 24 ≤ slot) : s.unpinChecks p slot = .error .noSlot := by
  simp [State.unpinChecks, life, run, slotIndex_of_le above]

/-- Past the checks of the part, those of the user map and the pin. -/
theorem unpinChecks_of_slot (i : Fin 24) :
    s.unpinChecks p i = if (s.slot i).userMap.has p = false then .error .notUser
      else if (s.slot i).pin.any (fun h => decide (h.holder = p)) then .ok i else .error .notPinned := by
  simp only [State.unpinChecks, life, run, slotIndex_val, if_false]

end

/-- Settles O47: each refusal is a check of `State.unpinChecks`, and the removal makes the commit start test, which needs an armed batch with
its flag set. -/
theorem unpinTable : Obligations.UnpinTable := by
  intro p s slot holds idle flush frame refused
  have event : exec (.unpin p) s = .next ((s.granted p (.unpin slot)).enterUnpin p slot).settle := by
    rw [← enter_unpin]
    exact congrArg Host.Outcome.next (atStop_keyCommand holds (by decide) idle frame _)
  have refuses {e : Status} (fails : s.unpinChecks p slot = .error e) : refused e := by
    refine event.trans (congrArg Host.Outcome.next ?_)
    rw [← enter_unpin]
    refine settle_refused idle flush ?_
    rw [enter_unpin, State.enterUnpin, unpinChecks_granted, fails]
  refine ⟨fun life => refuses (unpinChecks_retired life _), fun life run => refuses (unpinChecks_fault life run _),
    fun life run above => refuses (unpinChecks_noSlot life run above), ?_⟩
  rintro i life run rfl
  have checks := unpinChecks_of_slot (p := p) life run i
  refine ⟨fun user => refuses (by rw [checks, if_pos user]), fun user others => refuses ?_, fun h user pin own => ?_⟩
  · have none : ¬ (s.slot i).pin.any (fun h => decide (h.holder = p)) = true := by
      rw [Option.any_eq_true]
      exact fun ⟨h, pin, own⟩ => others h pin (of_decide_eq_true own)
    rw [checks, if_neg (by simp [user]), if_neg none]
  · intro u
    have passes : s.unpinChecks p i = .ok i := by rw [checks, if_neg (by simp [user]), if_pos (by simp [pin, own])]
    have removed : (s.granted p (.unpin i)).enterUnpin p i = u.commitStart := by
      rw [State.enterUnpin, unpinChecks_granted, passes]
      simp only [granted_slot]
      rw [granted_setSlot, complete_granted]
    have still : (s.setSlot i { s.slot i with pin := none }).EngineIdle := idle
    refine ⟨by rw [event, removed], fun unready => ?_⟩
    have renewal : u.renewal = s.renewal := by cases p <;> rfl
    have waits : u.commitStart = u := if_neg fun ⟨armed, _, flag, _⟩ => by
      rw [renewal] at armed flag
      rcases unready with clear | other
      · simp [clear] at flag
      · exact other armed
    rw [event, removed, waits, settle_answered still flush]

/-! ## CHECK_TAG (R37, R51, R52, R54) -/

section
variable {s : State} {p : Port}

theorem checkTagChecks_granted (q : Request) (slot : Nat) : (s.granted p q).checkTagChecks p slot = s.checkTagChecks p slot := by
  cases p <;> rfl

theorem enter_checkTag (s : State) (p : Port) (slot g c : Nat) (tag : Tag) :
    (s.granted p (.checkTag slot g c tag)).enter p = (s.granted p (.checkTag slot g c tag)).enterCheckTag p slot g c tag := by
  rw [State.enter, granted_port]
  rfl

theorem checkTagChecks_retired (life : s.supply.lifeCycle = .retired) (slot : Nat) : s.checkTagChecks p slot = .error .retired :=
  if_pos life

theorem checkTagChecks_fault (life : s.supply.lifeCycle ≠ .retired) (run : s.supply.run = .fault) (slot : Nat) :
    s.checkTagChecks p slot = .error .fault := by rw [State.checkTagChecks, if_neg life, if_pos run]

section
variable (life : s.supply.lifeCycle ≠ .retired) (run : s.supply.run ≠ .fault)
include life run

theorem checkTagChecks_noSlot {slot : Nat} (above : 24 ≤ slot) : s.checkTagChecks p slot = .error .noSlot := by
  simp [State.checkTagChecks, life, run, slotIndex_of_le above]

/-- Past the checks of the part, those of the slot (R51). -/
theorem checkTagChecks_of_slot (i : Fin 24) :
    s.checkTagChecks p i = if (s.slot i).role ≠ .accept then .error .wrongRole
      else if (s.slot i).userMap.has p = false then .error .notUser
      else if (s.slot i).current.isNone then .error .noKey else .ok i := by
  simp only [State.checkTagChecks, life, run, slotIndex_val, if_false]

end

/-! ### The matched cell (R52) -/

section
variable {c : Slot} {k : Current} {g : Nat} (current : c.current = some k)
include current

theorem matching_of_current (same : k.generation = g) :
    c.matching g = if k.state = .expired then .error .expired else if k.state = .spent then .error .spent
      else .ok ⟨.current, k.counters.floors.1, k.counters.floors.2, k.bank⟩ := by
  have own : c.current.filter (fun k => decide (k.generation = g)) = some k := by
    rw [current, Option.filter_some, if_pos (decide_eq_true same)]
  simp only [Slot.matching, own]

theorem filter_current_of_other (other : k.generation ≠ g) : c.current.filter (fun k => decide (k.generation = g)) = none := by
  rw [current, Option.filter_some, if_neg (by simpa using other)]

theorem matching_of_prior {o : Prior} (other : k.generation ≠ g) (prior : c.prior = some o) (same : o.generation = g) :
    c.matching g = .ok ⟨.prior, o.f, o.persisted, o.bank⟩ := by
  have own : c.prior.filter (fun o => decide (o.generation = g)) = some o := by
    rw [prior, Option.filter_some, if_pos (decide_eq_true same)]
  simp only [Slot.matching, filter_current_of_other current other, own]

theorem matching_of_none (other : k.generation ≠ g) (none : ∀ o ∈ c.prior, o.generation ≠ g) : c.matching g = .error .unknownGen := by
  have unmatched : c.prior.filter (fun o => decide (o.generation = g)) = .none := by
    rw [Option.filter_eq_none_iff]
    exact fun o prior => by simpa using none o prior
  simp only [Slot.matching, filter_current_of_other current other, unmatched]

end

/-- A CHECK_TAG that has matched a cell (R37, R53). -/
theorem enterCheckTag_of_matched {slot g c : Nat} {tag : Tag} {i : Fin 24} {m : Matched} (passes : s.checkTagChecks p slot = .ok i)
    (wait : (s.slot i).wait = none) (matched : (s.slot i).matching g = .ok m) :
    s.enterCheckTag p slot g c tag = if c ≤ m.f then s.refuse p .replayed
      else { s with engine := some (.compare p i g c tag m.position m.bank (m.persisted + (s.slot i).stride)) } := by
  simp only [State.enterCheckTag, passes, wait, matched]

theorem enterCheckTag_of_unmatched {slot g c : Nat} {tag : Tag} {i : Fin 24} {e : Status} (passes : s.checkTagChecks p slot = .ok i)
    (wait : (s.slot i).wait = none) (matched : (s.slot i).matching g = .error e) :
    s.enterCheckTag p slot g c tag = s.refuse p e := by
  simp only [State.enterCheckTag, passes, wait, matched]

theorem enterCheckTag_of_wait {slot g c : Nat} {tag : Tag} {i : Fin 24} {w : WriteWait} (passes : s.checkTagChecks p slot = .ok i)
    (wait : (s.slot i).wait = some w) : s.enterCheckTag p slot g c tag = s.joinWait i w p := by
  simp only [State.enterCheckTag, passes, wait]

theorem stride_of_policy {c : Slot} {y : Policy} (policy : c.policy = some y) : c.stride = y.stride := by
  simp only [Slot.stride, policy]

/-- A busy engine leaves nothing to grant. -/
theorem settle_of_busy (busy : s.engine.isSome = true) (run : s.supply.run ≠ .flush) : s.settle = s :=
  settle_of_atRest ⟨grant_none_of_engine busy, run⟩

end

/-- Settles O44: each refusal is a check of `State.checkTagChecks` or a row of `Slot.matching`. -/
theorem checkTagTable : Obligations.CheckTagTable := by
  intro p s slot g c tag holds idle flush frame refused taken
  have event : exec (.checkTag p) s = .next (taken.enterCheckTag p slot g c tag).settle := by
    change _ = Host.Outcome.next ((s.granted p _).enterCheckTag p slot g c tag).settle
    rw [← enter_checkTag]
    exact congrArg Host.Outcome.next (atStop_keyCommand holds (by decide) idle frame fun f : Nat × Nat × Nat × Tag =>
      Request.checkTag f.1 f.2.1 f.2.2.1 f.2.2.2)
  have refuses {e : Status} (entered : taken.enterCheckTag p slot g c tag = taken.refuse p e) : refused e := by
    refine event.trans (congrArg Host.Outcome.next ?_)
    rw [entered, State.refuse]
    exact (congrArg State.settle (complete_granted s p _ e [])).trans (settle_answered idle flush e [])
  have fails {e : Status} (checks : s.checkTagChecks p slot = .error e) : refused e := by
    have checks : taken.checkTagChecks p slot = .error e := (checkTagChecks_granted _ _).trans checks
    exact refuses (by simp only [State.enterCheckTag, checks])
  refine ⟨fun life => fails (checkTagChecks_retired life _), fun life run => fails (checkTagChecks_fault life run _),
    fun life run above => fails (checkTagChecks_noSlot life run above), ?_⟩
  rintro i life run rfl
  have checks := checkTagChecks_of_slot (p := p) life run i
  refine ⟨fun role => fails (by rw [checks, if_pos role]),
    fun role user => fails (by rw [checks, if_neg (not_not_intro role), if_pos user]),
    fun role user cell => fails (by rw [checks, if_neg (not_not_intro role), if_neg (by simp [user]), if_pos (by simp [cell])]),
    fun k y role user current policy => ?_⟩
  have passes : taken.checkTagChecks p i = .ok i := (checkTagChecks_granted _ _).trans
    (by rw [checks, if_neg (not_not_intro role), if_neg (by simp [user]), if_neg (by simp [current])])
  have slot : taken.slot i = s.slot i := granted_slot i
  have stride : (taken.slot i).stride = y.stride := by rw [slot, stride_of_policy policy]
  have unmatched {e : Status} (wait : (s.slot i).wait = none) (m : (s.slot i).matching g = .error e) : refused e :=
    refuses (enterCheckTag_of_unmatched passes (by rw [slot, wait]) (by rw [slot, m]))
  have matched {m : Matched} (wait : (s.slot i).wait = none) (m' : (s.slot i).matching g = .ok m) :
      (c ≤ m.f → refused .replayed) ∧ (m.f < c → exec (.checkTag p) s =
        .next { taken with engine := some (.compare p i g c tag m.position m.bank (m.persisted + y.stride)) }) := by
    have entered := enterCheckTag_of_matched (c := c) (tag := tag) passes (by rw [slot, wait]) (m := m) (by rw [slot, m'])
    refine ⟨fun low => refuses (entered.trans (if_pos low)), fun above => ?_⟩
    rw [event, entered, if_neg (Nat.not_le.mpr above), stride]
    exact congrArg Host.Outcome.next (settle_of_busy rfl (by simpa [taken, State.turnTo] using flush))
  refine ⟨fun w wait => ?_, fun wait same expired => unmatched wait ?_, fun wait same spent => unmatched wait ?_,
    fun f q wait same live counters => ?_, fun o wait other prior same => ?_, fun wait other none => unmatched wait ?_⟩
  · have still : (taken.joinWait i w p).EngineIdle := idle.granted
    rw [event, enterCheckTag_of_wait passes (by rw [slot, wait]), still.settle (by simpa [taken, State.turnTo, State.joinWait] using flush),
      State.joinWait, slot]
  · rw [matching_of_current current same, if_pos expired]
  · rw [matching_of_current current same, if_neg (by simp [spent]), if_pos spent]
  · have m : (s.slot i).matching g = .ok ⟨.current, f, q, k.bank⟩ := by
      rw [matching_of_current current same, if_neg (by simp [live]), if_neg (by simp [live]), counters]
      rfl
    exact matched wait m
  · exact matched wait (matching_of_prior current other prior same)
  · exact matching_of_none current other none

/-! ## A MAKE_TAG that passes its checks (R26, R27, R54) -/

section
variable {s : State} {p : Port} {i : Fin 24} {k : Current}

theorem enterMakeTag_of_free {slot : Nat} {expected : Option Nat} (passes : s.makeTagChecks p slot expected = .ok (i, k))
    (wait : (s.slot i).wait = none) : s.enterMakeTag p slot expected = s.issueStep p i k := by
  simp only [State.enterMakeTag, passes, wait]

theorem enterMakeTag_of_wait {slot : Nat} {expected : Option Nat} {w : WriteWait} (passes : s.makeTagChecks p slot expected = .ok (i, k))
    (wait : (s.slot i).wait = some w) : s.enterMakeTag p slot expected = s.joinWait i w p := by
  simp only [State.enterMakeTag, passes, wait]

theorem issueStep_above {n c l : Nat} (counters : k.counters = .issue n c l) (above : c < n + 1) :
    s.issueStep p i k = s.beginWait i p (.ceiling k.generation (min (c + (s.slot i).stride) l)) := by
  simp only [State.issueStep, counters]
  exact if_neg (Nat.not_le.mpr above)

/-- The two queues after the evaluations of an issue (R30, R31). -/
def issueDemands (i : Fin 24) (generation t : Nat) (low last has : Bool) (q : List Demand) : List Demand :=
  let q := if low && has then arrive q ⟨.counterLow, some i, some generation, none, t⟩ else q
  if last && has then arrive q ⟨.spent, some i, some generation, none, t⟩ else q

theorem issueDemands_eq (g t : Nat) (low last has : Bool) (q : List Demand) :
    (if has then (conditionDemands i g t low last false false).foldl arrive q else q) = issueDemands i g t low last has q := by
  rw [foldl_arrive_conditionDemands, issueDemands]
  cases has <;> simp

/-- Both evaluations of a CURRENT cell (R30, R31, R40, R41): the cell and the demand queues are all that changes. -/
theorem evaluateCounter_eq (current : (s.slot i).current = some k) :
    (s.evaluateLow i).evaluateSpent i = { s with
      slots := s.slots.set i.val { s.slot i with current := some { k with
        warned := k.warned || counterLowDue (s.slot i).policy k, state := if k.spentDue then .spent else k.state } } i.isLt
      queueM := issueDemands i k.generation s.time.t (counterLowDue (s.slot i).policy k) k.spentDue (s.slot i).notifyMap.m s.queueM
      queueL := issueDemands i k.generation s.time.t (counterLowDue (s.slot i).policy k) k.spentDue (s.slot i).notifyMap.l s.queueL } := by
  have slot := State.evaluateCounter_slot current
  have queueM := State.evaluateCounter_queue current .M
  have queueL := State.evaluateCounter_queue current .L
  rw [issueDemands_eq] at queueM queueL
  obtain ⟨c, qm, ql, e⟩ := (s.evaluateLow_sameBesides i).trans (State.evaluateSpent_sameBesides _ i)
  rw [e] at slot queueM queueL ⊢
  have slot : c = _ := (s.slot_setSlot i c).symm.trans slot
  have queueM : qm = _ := queueM
  have queueL : ql = _ := queueL
  rw [slot, queueM, queueL]
  rfl

/-- An issue within the ceiling (R26, R30, R31): n takes the next value, the cell is evaluated, and its tag is being computed. -/
theorem issueStep_within {n c l : Nat} (live : k.state = .live)
    (counters : k.counters = .issue n c l) (within : n + 1 ≤ c) :
    let k' := { k with counters := .issue (n + 1) c l }
    let low := counterLowDue (s.slot i).policy k'
    let last := decide (n + 1 = l)
    s.issueStep p i k = { s with
      slots := s.slots.set i.val { s.slot i with current := some { k' with
        warned := k.warned || low, state := if last then .spent else .live } } i.isLt
      queueM := issueDemands i k.generation s.time.t low last (s.slot i).notifyMap.m s.queueM
      queueL := issueDemands i k.generation s.time.t low last (s.slot i).notifyMap.l s.queueL
      engine := some (.issue p i k.generation (n + 1) last k.bank) } := by
  intro k' low last
  have spent : k'.spentDue = last := by simp [Current.spentDue, k', live, Counters.atLimit, last]
  have evaluated := evaluateCounter_eq (s := s.setSlot i { s.slot i with current := some k' }) (i := i) (k := k') (by rw [State.slot_setSlot])
  rw [State.slot_setSlot, spent] at evaluated
  simp only [State.issueStep, counters]
  rw [if_pos within, evaluated]
  simp [State.setSlot, k', live, low, last]

end

theorem handed_supply (s : State) (w : Write) (r : Requester) : (s.handed w r).supply = s.supply := by
  unfold State.handed
  split <;> rfl

theorem State.EngineIdle.handed {s : State} (idle : s.EngineIdle) (w : Write) (r : Requester) : (s.handed w r).EngineIdle := by
  unfold State.handed
  split <;> exact idle

/-- Settles O42: the issue step within the ceiling, above it, and behind a write wait. -/
theorem makeTagIssuesOrReserves : Obligations.MakeTagIssuesOrReserves := by
  intro p s i expected k y n c l holds idle run life frame role user current policy live counters same taken low last k' raised
  have flush : s.supply.run ≠ .flush := by simp [run]
  have fault : s.supply.run ≠ .fault := by simp [run]
  have supply : taken.supply = s.supply := granted_supply
  have slot : taken.slot i = s.slot i := granted_slot i
  have event : exec (.makeTag p) s = .next (taken.enterMakeTag p i expected).settle := by
    change _ = Host.Outcome.next (State.enterMakeTag (s.granted p _) p i expected).settle
    refine congrArg Host.Outcome.next ((atStop_keyCommand holds (by decide) idle frame fun f : Nat × Option Nat =>
      Request.makeTag f.1 f.2).trans ?_)
    rw [State.enter, granted_port]
    rfl
  have passes : taken.makeTagChecks p i expected = .ok (i, k) := by
    refine (makeTagChecks_inFlight _ _ _).trans ?_
    rw [makeTagChecks_of_generation life fault role user current same, if_neg (by simp [live]), if_neg (by simp [live])]
  refine ⟨fun wait within => ?_, fun wait above => ?_, fun w wait => ?_⟩
  · have due : counterLowDue (taken.slot i).policy { k with counters := .issue (n + 1) c l } = low := by
      rw [slot, policy]
      simp [counterLowDue, Policy.low, Counters.left, low, Bool.and_assoc]
    have issued := issueStep_within (s := taken) (p := p) (i := i) live counters within
    dsimp only at issued
    rw [due, slot] at issued
    rw [event, enterMakeTag_of_free passes (by rw [slot, wait]), issued, settle_of_busy rfl (by rw [supply]; exact flush)]
    cases p <;> rfl
  · rw [event, enterMakeTag_of_free passes (by rw [slot, wait]), issueStep_above counters above, slot, stride_of_policy policy,
      beginWait_of_run (by rw [supply, run]), slot]
    have still : (taken.setSlot i { s.slot i with
        wait := some ⟨.ceiling k.generation (min (c + y.stride) l), p, []⟩ }).EngineIdle := idle.granted
    rw [(still.handed _ _).settle (by rw [handed_supply]; simpa [supply] using flush)]
    rfl
  · have still : (taken.joinWait i w p).EngineIdle := idle.granted
    rw [event, enterMakeTag_of_wait passes (by rw [slot, wait]), still.settle (by simpa [State.joinWait, supply] using flush),
      State.joinWait, slot]

/-! ## CARRY_FORWARD (R146) -/

theorem nextPosition_ne (n : Nat) : nextPosition n ≠ n := by
  unfold nextPosition
  split <;> omega

/-- What is live after a copy: the copy, and every record but the original (R147). -/
theorem copied_isLive (j : Journal) (r : Record) (n : Nat) :
    (j.copied r).isLive n = (decide (n = j.writePosition) || (j.isLive n && decide (n ≠ nextPosition j.writePosition))) := by
  rw [Bool.eq_iff_iff]
  simp [Journal.copied, Journal.advance, Journal.isLive, mem_insertRising]

/-- Settles O56. -/
theorem carryForwardCopies : Obligations.CarryForwardCopies := by
  intro s b r rest queue
  refine ⟨fun x copy _ => ?_, fun none => ?_⟩
  · have apart := nextPosition_ne s.journal.writePosition
    refine ⟨s.journal.copied x, ?_, cellGet_cellSet_same _ _ _, fun k other => cellGet_cellSet_ne other _ _, rfl, rfl, rfl, rfl, rfl, rfl, ?_, ?_,
      fun k here next => ?_⟩
    · simp only [exec, execCarryForward, queue, copy]
    · simp [copied_isLive]
    · have next : (s.journal.copied x).writePosition = nextPosition s.journal.writePosition := rfl
      simp [copied_isLive, next, apart]
    · have next : k ≠ nextPosition s.journal.writePosition := next
      simp [copied_isLive, here, next]
  · simp only [exec, execCarryForward, queue, none]

end Sys2Proof.Machine
end

section
/-! PROOFS. The deadlines of a new T (chapter 6, R131): slot by slot what is marked, raised and removed, and the commit start tests that the
pin lapses and the scheduled activation make. -/

namespace Sys2Proof.Machine

/-- Induction over a list from its end, as a fold from the left builds it. -/
theorem list_induction_from_end {α : Type} {motive : List α → Prop} (l : List α) (nil : motive [])
    (append_singleton : ∀ l a, motive l → motive (l ++ [a])) : motive l := by
  rw [← l.reverse_reverse]
  induction l.reverse with
  | nil => exact nil
  | cons a rest ih =>
    rw [List.reverse_cons]
    exact append_singleton _ a ih

/-! ## The life warning, the expiry, the grace end and the pin lapse of one slot (R19, R132 to R134) -/

theorem lifeWarningDue_eq (k : Current) (policy : Option Policy) (t : Nat)
    [Decidable (∃ l ∈ k.lifetime, ∃ y ∈ policy, 0 < y.lifeWarn ∧ k.activation + l ≤ t + y.lifeWarn)] :
    (!k.lifeWarned && decide (k.state ≠ .expired) &&
      decide (∃ l ∈ k.lifetime, ∃ y ∈ policy, 0 < y.lifeWarn ∧ k.activation + l ≤ t + y.lifeWarn)) = k.lifeWarningDue policy t := by
  rw [Current.lifeWarningDue]
  congr 1
  rw [Bool.eq_iff_iff, decide_eq_true_eq]
  simp [Current.inLifeWarning, Option.any_eq_true]

theorem expiryDue_eq (k : Current) (t : Nat) [Decidable (∃ l ∈ k.lifetime, k.activation + l ≤ t)] :
    (decide (k.state = .live) && decide (∃ l ∈ k.lifetime, k.activation + l ≤ t)) = k.expiryDue t := by
  rw [Bool.eq_iff_iff, expiryDue_iff]
  simp

section
variable {s : State} {i : Fin 24} {k : Current}

theorem lifeWarning_slot (current : (s.slot i).current = some k) :
    (s.lifeWarning i).slot i =
      { s.slot i with current := some { k with lifeWarned := k.lifeWarned || k.lifeWarningDue (s.slot i).policy s.time.t } } := by
  cases due : k.lifeWarningDue (s.slot i).policy s.time.t
  · rw [lifeWarning_of_not_due current (by simp [due])]
    simp [Slot.current_eta current]
  · simp [State.lifeWarning, current, State.now, due]

theorem lifeWarning_queue (current : (s.slot i).current = some k) (x : Port) :
    (s.lifeWarning i).queue x = if k.lifeWarningDue (s.slot i).policy s.time.t && (s.slot i).notifyMap.has x
      then arrive (s.queue x) ⟨.lifeLow, some i, some k.generation, none, s.time.t⟩ else s.queue x := by
  cases due : k.lifeWarningDue (s.slot i).policy s.time.t
  · rw [lifeWarning_of_not_due current (by simp [due])]
    simp
  · simp [State.lifeWarning, current, State.now, due, State.raiseSlot_queue]

theorem expire_slot (current : (s.slot i).current = some k) :
    (s.expire i).slot i =
      { s.slot i with current := some { k with state := if k.expiryDue s.time.t then .expired else k.state } } := by
  cases due : k.expiryDue s.time.t
  · rw [expire_of_not_due current (by simp [due])]
    simp [Slot.current_eta current]
  · simp [State.expire, current, State.now, due]

theorem expire_queue (current : (s.slot i).current = some k) (x : Port) :
    (s.expire i).queue x = if k.expiryDue s.time.t && (s.slot i).notifyMap.has x
      then arrive (s.queue x) ⟨.expired, some i, some k.generation, none, s.time.t⟩ else s.queue x := by
  cases due : k.expiryDue s.time.t
  · rw [expire_of_not_due current (by simp [due])]
    simp
  · simp [State.expire, current, State.now, due, State.raiseSlot_queue]

/-- LIFE_LOW arrives at a queue before EXPIRED (R131). -/
theorem foldl_arrive_lifeDemands (i : Fin 24) (g t : Nat) (life expired : Bool) (q : List Demand) :
    (conditionDemands i g t false false life expired).foldl arrive q =
      let warned := if life then arrive q ⟨.lifeLow, some i, some g, none, t⟩ else q
      if expired then arrive warned ⟨.expired, some i, some g, none, t⟩ else warned := by
  cases life <;> cases expired <;> rfl

end

/-- A slot after the deadlines of `t` (R131). -/
def Slot.met (c : Slot) (t : Nat) : Slot :=
  { c with
    current := c.current.map fun k => { k with
      lifeWarned := k.lifeWarned || k.lifeWarningDue c.policy t, state := if k.expiryDue t then .expired else k.state }
    prior := c.prior.filter fun k => decide (t < k.graceEnd)
    pin := c.pin.filter fun k => decide (t < k.pinEnd) }

/-- The pin of a slot that lapses at `t` (R19). -/
def Slot.lapsed (c : Slot) (t : Nat) : Option Pin := c.pin.filter fun k => decide (k.pinEnd ≤ t)

/-- What the life warning and the expiry of a slot raise at a port's queue (R132, R133). -/
def Slot.lifeDemands (c : Slot) (i : Fin 24) (t : Nat) (x : Port) : List Demand :=
  match c.current with
  | some k => if c.notifyMap.has x
      then conditionDemands i k.generation t false false (k.lifeWarningDue c.policy t) (k.expiryDue t) else []
  | none => []

/-- What the pin lapse of a slot raises at a port's queue (R19). -/
def Slot.lapseDemands (c : Slot) (i : Fin 24) (t : Nat) (x : Port) : List Demand :=
  match c.lapsed t with
  | some k => if k.holder = x then [⟨.pinLapsed, some i, some k.generation, none, t⟩] else []
  | none => []

section
variable (s : State) (i : Fin 24)

/-- The life warning, the expiry and the grace end of a slot together. -/
theorem cellDeadlines_sameBesides : s.SameBesides i (((s.lifeWarning i).expire i).endGrace i) :=
  ((s.lifeWarning_sameBesides i).trans (State.expire_sameBesides _ i)).trans (State.endGrace_sameBesides _ i)

theorem endGrace_slot : (s.endGrace i).slot i = { s.slot i with prior := (s.slot i).prior.filter fun k => decide (s.time.t < k.graceEnd) } := by
  unfold State.endGrace
  split
  next k prior =>
    by_cases due : k.graceEnd ≤ s.now
    · rw [if_pos due, State.slot_setSlot, prior, Option.filter_some, if_neg (by simpa [State.now] using due)]
    · rw [if_neg due, prior, Option.filter_some, if_pos (by simpa [State.now] using due), ← prior]
  next none =>
    rw [none, Option.filter_none, ← none]

theorem endGrace_queue (x : Port) : (s.endGrace i).queue x = s.queue x := by
  unfold State.endGrace
  split
  · split
    · exact s.setSlot_queue i _ x
    · rfl
  · rfl

theorem cellDeadlines_slot :
    (((s.lifeWarning i).expire i).endGrace i).slot i = { (s.slot i).met s.time.t with pin := (s.slot i).pin } := by
  have time : ((s.lifeWarning i).expire i).time = s.time :=
    (((s.lifeWarning_sameBesides i).trans (State.expire_sameBesides _ i))).time_eq
  rw [endGrace_slot, time]
  cases current : (s.slot i).current with
  | none =>
    have still : (s.lifeWarning i).expire i = s := by simp [State.lifeWarning, State.expire, current]
    simp [still, Slot.met, current]
  | some k =>
    have warned := lifeWarning_slot current
    have expired := expire_slot (s := s.lifeWarning i) (by rw [warned])
    rw [expired, warned, (s.lifeWarning_sameBesides i).time_eq]
    simp [Slot.met, current]
    rfl

theorem cellDeadlines_queue (x : Port) :
    (((s.lifeWarning i).expire i).endGrace i).queue x = ((s.slot i).lifeDemands i s.time.t x).foldl arrive (s.queue x) := by
  rw [endGrace_queue]
  cases current : (s.slot i).current with
  | none =>
    have still : (s.lifeWarning i).expire i = s := by simp [State.lifeWarning, State.expire, current]
    simp [still, Slot.lifeDemands, current]
  | some k =>
    have warned := lifeWarning_slot current
    have expired := expire_queue (s := s.lifeWarning i) (by rw [warned]) x
    have same : Current.expiryDue { k with lifeWarned := k.lifeWarned || k.lifeWarningDue (s.slot i).policy s.time.t } s.time.t =
      k.expiryDue s.time.t := rfl
    rw [expired, lifeWarning_queue current, warned, (s.lifeWarning_sameBesides i).time_eq, same]
    simp only [Slot.lifeDemands, current]
    cases (s.slot i).notifyMap.has x
    · simp
    · simp [foldl_arrive_lifeDemands]

end

/-! ## The deadlines of one slot, and of a list of slots (R131) -/

/-- The deadlines of slot `i` before the commit start test of its pin lapse (R19, R132 to R134). -/
def State.slotDue (s : State) (i : Fin 24) : State :=
  match (s.slot i).lapsed s.time.t with
  | some k => (((s.lifeWarning i).expire i).endGrace i).pinLapsed i k
  | none => ((s.lifeWarning i).expire i).endGrace i

section
variable {s : State} {i : Fin 24}

theorem lapsed_eq_some {c : Slot} {t : Nat} {k : Pin} : c.lapsed t = some k ↔ c.pin = some k ∧ k.pinEnd ≤ t := by
  rw [Slot.lapsed, Option.filter_eq_some_iff, decide_eq_true_eq]

theorem lapsed_eq_none {c : Slot} {t : Nat} : c.lapsed t = none ↔ ∀ k ∈ c.pin, t < k.pinEnd := by
  simp [Slot.lapsed, Option.filter_eq_none_iff]

theorem pinLapsed_sameBesides (s : State) (i : Fin 24) (k : Pin) : s.SameBesides i (s.pinLapsed i k) := by
  have queue : (s.setSlot i { s.slot i with pin := none }).queue k.holder = s.queue k.holder := s.setSlot_queue i _ _
  rw [State.pinLapsed, ← queue, ← raise_only]
  exact (State.SameBesides.setSlot s i _).trans (.raise _ i _ _)

theorem slotDue_of_lapsed {k : Pin} (lapsed : (s.slot i).lapsed s.time.t = some k) :
    s.slotDue i = (((s.lifeWarning i).expire i).endGrace i).pinLapsed i k := by rw [State.slotDue, lapsed]

theorem slotDue_of_not_lapsed (stays : (s.slot i).lapsed s.time.t = none) :
    s.slotDue i = ((s.lifeWarning i).expire i).endGrace i := by rw [State.slotDue, stays]

theorem slotDue_sameBesides (s : State) (i : Fin 24) : s.SameBesides i (s.slotDue i) := by
  cases lapsed : (s.slot i).lapsed s.time.t with
  | none => exact slotDue_of_not_lapsed lapsed ▸ cellDeadlines_sameBesides s i
  | some k => exact slotDue_of_lapsed lapsed ▸ (cellDeadlines_sameBesides s i).trans (pinLapsed_sameBesides _ i k)

theorem slotDue_slot (s : State) (i : Fin 24) : (s.slotDue i).slot i = (s.slot i).met s.time.t := by
  cases lapsed : (s.slot i).lapsed s.time.t with
  | none =>
    have kept : (s.slot i).pin.filter (fun k => decide (s.time.t < k.pinEnd)) = (s.slot i).pin :=
      Option.ext fun k => Option.filter_eq_some_iff.trans
        (and_iff_left_of_imp fun pin => decide_eq_true (lapsed_eq_none.mp lapsed k pin))
    rw [slotDue_of_not_lapsed lapsed, cellDeadlines_slot, ← kept]
    rfl
  | some k =>
    obtain ⟨pin, due⟩ := lapsed_eq_some.mp lapsed
    have gone : (s.slot i).pin.filter (fun k => decide (s.time.t < k.pinEnd)) = none := by simp [pin, due]
    rw [slotDue_of_lapsed lapsed, State.pinLapsed, State.slot, State.setQueue_slots, ← State.slot, State.slot_setSlot,
      cellDeadlines_slot, ← gone]
    rfl

theorem slotDue_queue (s : State) (i : Fin 24) (x : Port) : (s.slotDue i).queue x =
    ((s.slot i).lifeDemands i s.time.t x ++ (s.slot i).lapseDemands i s.time.t x).foldl arrive (s.queue x) := by
  rw [List.foldl_append, ← cellDeadlines_queue s i x]
  cases lapsed : (s.slot i).lapsed s.time.t with
  | none =>
    rw [slotDue_of_not_lapsed lapsed, Slot.lapseDemands, lapsed]
    rfl
  | some k =>
    rw [slotDue_of_lapsed lapsed, Slot.lapseDemands, lapsed, State.pinLapsed, (cellDeadlines_sameBesides s i).time_eq]
    by_cases here : k.holder = x
    · simp [here]
    · obtain rfl : x = k.holder.other := by revert here; cases x <;> cases k.holder <;> simp [Port.other]
      simp [here]

/-- Where the table evaluates deadlines, those of a slot are `State.slotDue`, with the commit start test where its pin lapses. -/
theorem slotDeadlines_eq (evaluates : s.evaluates = true) :
    s.slotDeadlines i = if ((s.slot i).lapsed s.time.t).isSome then (s.slotDue i).commitStart else s.slotDue i := by
  rw [State.slotDeadlines, if_pos evaluates]
  have time := (cellDeadlines_sameBesides s i).time_eq
  have pin := congrArg Slot.pin (cellDeadlines_slot s i)
  cases lapsed : (s.slot i).lapsed s.time.t with
  | some k =>
    obtain ⟨held, due⟩ := lapsed_eq_some.mp lapsed
    rw [slotDue_of_lapsed lapsed]
    exact lapsePin_of_due (pin.trans held) (time ▸ due)
  | none =>
    rw [slotDue_of_not_lapsed lapsed]
    cases held : (s.slot i).pin with
    | some k => exact lapsePin_of_ahead (pin.trans held) (time ▸ lapsed_eq_none.mp lapsed k held)
    | none =>
      have none := pin.trans held
      simp [State.lapsePin, none]

end

/-- The commit start test of R105 without the hold. -/
def State.MayCommit (s : State) : Prop :=
  s.renewal.state = .armed ∧ s.renewal.disarm = false ∧ s.renewal.activation = true ∧ s.namedPinned = false ∧ s.supply.run = .run

theorem commitStart_of_may {s : State} (may : s.MayCommit) (hold : s.arbiter.hold = .none) :
    s.commitStart = { s with arbiter := { s.arbiter with hold := .requested } } := by
  obtain ⟨armed, disarm, flag, unpinned, run⟩ := may
  exact commitStart_requests armed disarm flag unpinned run hold

theorem commitStart_of_may_not {s : State} (not : ¬ s.MayCommit) : s.commitStart = s :=
  if_neg fun ⟨armed, disarm, flag, unpinned, run, _⟩ => not ⟨armed, disarm, flag, unpinned, run⟩

/-- What the deadlines of the slots `l` at the present T leave of `s` (R131). -/
structure State.SlotsMet (s : State) (l : List (Fin 24)) (u : State) : Prop where
  slot : ∀ j, u.slot j = if j ∈ l then (s.slot j).met s.time.t else s.slot j
  queue : ∀ x, u.queue x =
    (l.flatMap fun i => (s.slot i).lifeDemands i s.time.t x ++ (s.slot i).lapseDemands i s.time.t x).foldl arrive (s.queue x)
  renewal : u.renewal = s.renewal
  supply : u.supply = s.supply
  time : u.time = s.time
  requested : (∃ i ∈ l, ((s.slot i).lapsed s.time.t).isSome = true) → u.MayCommit → s.arbiter.hold = .none →
    u.arbiter = { s.arbiter with hold := .requested }
  still : ¬ ((∃ i ∈ l, ((s.slot i).lapsed s.time.t).isSome = true) ∧ u.MayCommit ∧ s.arbiter.hold = .none) → u.arbiter = s.arbiter

namespace State.SlotsMet

variable {s u : State} {i : Fin 24} {l : List (Fin 24)}

theorem nil (s : State) : s.SlotsMet [] s := ⟨fun _ => rfl, fun _ => rfl, rfl, rfl, rfl, nofun, fun _ => rfl⟩

/-- The named slots hold a pin after the deadlines of a slot where one held it before, and that slot's has not lapsed. -/
theorem namedPinned_slotDue (s : State) (i : Fin 24) :
    (s.slotDue i).namedPinned = s.renewal.named.any fun j =>
      (s.slot j).pin.isSome && !(decide (j = i) && ((s.slot i).lapsed s.time.t).isSome) := by
  obtain ⟨-, -, -, -, -, renewal, -⟩ := (slotDue_sameBesides s i).frame
  rw [State.namedPinned, renewal]
  congr 1
  funext j
  by_cases here : j = i
  · subst here
    rw [slotDue_slot]
    cases pin : (s.slot j).pin with
    | none => simp [Slot.met, pin]
    | some k => by_cases due : k.pinEnd ≤ s.time.t <;> simp [Slot.met, Slot.lapsed, pin, due, Nat.not_lt.mpr, Nat.not_le.mp]
  · simp [(slotDue_sameBesides s i).slot_ne here, here]

theorem mayCommit_slotDue (may : s.MayCommit) (i : Fin 24) : (s.slotDue i).MayCommit := by
  obtain ⟨-, -, -, -, -, renewal, -, -, supply⟩ := (slotDue_sameBesides s i).frame
  obtain ⟨armed, disarm, flag, unpinned, run⟩ := may
  rw [State.MayCommit, renewal, supply, namedPinned_slotDue]
  refine ⟨armed, disarm, flag, List.any_eq_false.mpr fun j named => ?_, run⟩
  simp [List.any_eq_false.mp unpinned j named]

theorem mayCommit_slotDue_iff (stays : (s.slot i).lapsed s.time.t = none) : (s.slotDue i).MayCommit ↔ s.MayCommit := by
  obtain ⟨-, -, -, -, -, renewal, -, -, supply⟩ := (slotDue_sameBesides s i).frame
  rw [State.MayCommit, State.MayCommit, renewal, supply, namedPinned_slotDue, stays]
  simp [State.namedPinned]

theorem mayCommit_commitStart : s.commitStart.MayCommit ↔ s.MayCommit := by
  simp [State.MayCommit, State.namedPinned, State.slot]

/-- The deadlines of one more slot. -/
theorem slotDeadlines (met : s.SlotsMet l u) (new : i ∉ l) (evaluates : s.evaluates = true) :
    s.SlotsMet (l ++ [i]) (u.slotDeadlines i) := by
  have slot : u.slot i = s.slot i := (met.slot i).trans (if_neg new)
  have same := slotDue_sameBesides u i
  obtain ⟨-, -, arbiter, -, -, renewal, -, time, supply⟩ := same.frame
  have eq := slotDeadlines_eq (s := u) (i := i) (by rwa [State.evaluates, met.supply])
  have slots : (u.slotDeadlines i).slots = (u.slotDue i).slots := by rw [eq]; split <;> simp
  have queues (x : Port) : (u.slotDeadlines i).queue x = (u.slotDue i).queue x := by rw [eq]; split <;> cases x <;> simp [State.queue]
  rw [slot, met.time] at eq
  refine
    { slot := fun j => ?_
      queue := fun x => ?_
      renewal := ?_
      supply := ?_
      time := ?_
      requested := fun lapses may hold => ?_
      still := fun not => ?_ }
  · rw [State.slot, slots, ← State.slot]
    by_cases here : j = i
    · subst here
      simp [slotDue_slot, slot, met.time]
    · simp [same.slot_ne here, met.slot, here]
  · rw [queues, slotDue_queue, met.queue, slot, met.time, List.flatMap_append, List.foldl_append]
    simp
  · rw [eq]; split <;> simp [renewal, met.renewal]
  · rw [eq]; split <;> simp [supply, met.supply]
  · rw [eq]; split <;> simp [time, met.time]
  · cases lapsed : (s.slot i).lapsed s.time.t with
    | none =>
      rw [lapsed] at eq
      have eq : u.slotDeadlines i = u.slotDue i := eq
      have earlier : ∃ j ∈ l, ((s.slot j).lapsed s.time.t).isSome = true := by simpa [or_and_right, exists_or, lapsed] using lapses
      have before : u.MayCommit := (mayCommit_slotDue_iff (by rw [slot, met.time, lapsed])).mp (eq ▸ may)
      rw [eq, arbiter, met.requested earlier before hold]
    | some k =>
      rw [lapsed] at eq
      have eq : u.slotDeadlines i = (u.slotDue i).commitStart := eq
      have now : (u.slotDue i).MayCommit := mayCommit_commitStart.mp (eq ▸ may)
      by_cases first : (∃ j ∈ l, ((s.slot j).lapsed s.time.t).isSome = true) ∧ u.MayCommit ∧ s.arbiter.hold = .none
      · obtain ⟨earlier, before, -⟩ := first
        have held : (u.slotDue i).arbiter = { s.arbiter with hold := .requested } := arbiter.trans (met.requested earlier before hold)
        rw [eq, commitStart_of_hold (by simp [held]), held]
      · have free : (u.slotDue i).arbiter = s.arbiter := arbiter.trans (met.still first)
        rw [eq, commitStart_of_may now (by rw [free, hold])]
        simp [free]
  · cases lapsed : (s.slot i).lapsed s.time.t with
    | none =>
      rw [lapsed] at eq
      have eq : u.slotDeadlines i = u.slotDue i := eq
      rw [eq, arbiter]
      refine met.still fun ⟨⟨j, old, earlier⟩, before, hold⟩ => not ⟨⟨j, by simp [old], earlier⟩, eq ▸ ?_, hold⟩
      exact (mayCommit_slotDue_iff (by rw [slot, met.time, lapsed])).mpr before
    | some k =>
      rw [lapsed] at eq
      have eq : u.slotDeadlines i = (u.slotDue i).commitStart := eq
      have here : ∃ j ∈ l ++ [i], ((s.slot j).lapsed s.time.t).isSome = true := ⟨i, by simp, by simp [lapsed]⟩
      have free : (u.slotDue i).arbiter = s.arbiter := arbiter.trans <| met.still fun ⟨_, before, hold⟩ =>
        not ⟨here, eq ▸ mayCommit_commitStart.mpr (mayCommit_slotDue before i), hold⟩
      rw [eq, ← free]
      by_cases hold : s.arbiter.hold = .none
      · rw [commitStart_of_may_not fun now => not ⟨here, eq ▸ mayCommit_commitStart.mpr now, hold⟩]
      · rw [commitStart_of_hold (by rwa [free])]

theorem foldl (evaluates : s.evaluates = true) (nodup : l.Nodup) : s.SlotsMet l (l.foldl State.slotDeadlines s) := by
  induction l using list_induction_from_end with
  | nil => exact nil s
  | append_singleton l i ih =>
    obtain ⟨nodup, -, new⟩ := List.nodup_append.mp nodup
    rw [List.foldl_append]
    exact (ih nodup).slotDeadlines (fun old => new i old i (by simp) rfl) evaluates

end State.SlotsMet

/-! ## The deadlines of a new T (R104, R131) -/

section
variable {s u : State}

/-- The flag of an armed batch is to be set at the present T (R104). -/
def State.ReachesActivation (s : State) : Prop :=
  s.renewal.state = .armed ∧ s.renewal.disarm = false ∧ s.renewal.activation = false ∧ ∃ a ∈ s.renewal.activationTick, a ≤ s.time.t

theorem scheduledActivation_of_reaches (run : s.supply.run ≠ .starting) (reaches : s.ReachesActivation) :
    s.scheduledActivation = ({ s with renewal := { s.renewal with activation := true } } : State).commitStart := by
  obtain ⟨armed, disarm, flag, a, tick, due⟩ := reaches
  exact scheduledActivation_of_reached armed tick run disarm flag due

/-- The hold after a test of the commit start: requested where the commit may start and no hold stands. -/
theorem commitStart_arbiter (s : State) :
    (s.MayCommit → s.arbiter.hold = .none → s.commitStart.arbiter = { s.arbiter with hold := .requested }) ∧
    (¬ (s.MayCommit ∧ s.arbiter.hold = .none) → s.commitStart.arbiter = s.arbiter) := by
  refine ⟨fun may hold => by rw [commitStart_of_may may hold], fun not => ?_⟩
  by_cases may : s.MayCommit
  · rw [commitStart_of_hold fun hold => not ⟨may, hold⟩]
  · rw [commitStart_of_may_not may]

theorem scheduledActivation_queue (s : State) (x : Port) : s.scheduledActivation.queue x = s.queue x := by
  unfold State.scheduledActivation
  split
  · split
    · cases x <;> simp [State.queue]
    · rfl
  · rfl

/-- Scheduled activation makes its commit start test beside those of the pin lapses before it (R104, R105). -/
theorem scheduledActivation_requests {lapses : Prop} (run : s.supply.run ≠ .starting) (renewal : u.renewal = s.renewal)
    (supply : u.supply = s.supply) (time : u.time = s.time)
    (requested : lapses → u.MayCommit → s.arbiter.hold = .none → u.arbiter = { s.arbiter with hold := .requested })
    (still : ¬ (lapses ∧ u.MayCommit ∧ s.arbiter.hold = .none) → u.arbiter = s.arbiter) :
    (s.ReachesActivation → u.scheduledActivation.renewal = { s.renewal with activation := true }) ∧
    (¬ s.ReachesActivation → u.scheduledActivation.renewal = s.renewal) ∧
    ((s.ReachesActivation ∨ lapses) → u.scheduledActivation.MayCommit → s.arbiter.hold = .none →
      u.scheduledActivation.arbiter = { s.arbiter with hold := .requested }) ∧
    (¬ ((s.ReachesActivation ∨ lapses) ∧ u.scheduledActivation.MayCommit ∧ s.arbiter.hold = .none) →
      u.scheduledActivation.arbiter = s.arbiter) := by
  have same : u.ReachesActivation ↔ s.ReachesActivation := by rw [State.ReachesActivation, renewal, time]; rfl
  by_cases reaches : s.ReachesActivation
  · have event := scheduledActivation_of_reaches (supply ▸ run) (same.mpr reaches)
    have free : u.arbiter = s.arbiter := still fun ⟨_, ⟨_, _, flag, _⟩, _⟩ => by
      obtain ⟨-, -, clear, -⟩ := reaches
      simp [renewal, clear] at flag
    obtain ⟨asked, kept⟩ := commitStart_arbiter { u with renewal := { u.renewal with activation := true } }
    rw [event]
    refine ⟨fun _ => by simp [renewal], fun not => absurd reaches not, fun _ may hold => ?_, fun not => ?_⟩
    · rw [asked (State.SlotsMet.mayCommit_commitStart.mp may) (by simpa [free] using hold)]
      simp [free]
    · rw [kept fun ⟨may, hold⟩ => not ⟨.inl reaches, State.SlotsMet.mayCommit_commitStart.mpr may, by simpa [free] using hold⟩]
      exact free
  · have event : u.scheduledActivation = u := scheduledActivation_of_not_reached (mt same.mp reaches)
    rw [event]
    exact ⟨fun yes => absurd yes reaches, fun _ => renewal, fun lapse => requested (lapse.resolve_left reaches),
      fun not => still fun ⟨lapse, rest⟩ => not ⟨.inr lapse, rest⟩⟩

/-- Of the renewal engine a set flag changes nothing else, so that what else the commit start test reads is as it was. -/
theorem mayCommit_of_flagged {v : State} (set : s.ReachesActivation → v.renewal = { s.renewal with activation := true })
    (clear : ¬ s.ReachesActivation → v.renewal = s.renewal) (supply : v.supply = s.supply) :
    v.MayCommit ↔ s.renewal.state = .armed ∧ s.renewal.disarm = false ∧ v.renewal.activation = true ∧ v.namedPinned = false ∧
      s.supply.run = .run := by
  have same : v.renewal.state = s.renewal.state ∧ v.renewal.disarm = s.renewal.disarm := by
    by_cases reaches : s.ReachesActivation
    · simp [set reaches]
    · simp [clear reaches]
  rw [State.MayCommit, same.1, same.2, supply]

/-- In RETIRED the deadlines are scheduled activation alone (R175). -/
theorem deadlines_met_of_retired (run : s.supply.run ≠ .starting) (retired : s.supply.lifeCycle = .retired) :
    s.DeadlinesMet s.time.t s.deadlines := by
  rw [State.deadlines, foldl_slotDeadlines_of_retired s retired]
  obtain ⟨set, clear, asked, kept⟩ := scheduledActivation_requests (u := s) (lapses := False) run rfl rfl rfl nofun fun _ => rfl
  have queue := scheduledActivation_queue s
  refine ⟨fun _ => ⟨scheduledActivation_slots s, queue .M, queue .L⟩, fun life => absurd retired life, set, clear, ?_⟩
  have may := mayCommit_of_flagged set clear (scheduledActivation_kept s).supply
  refine ⟨fun ⟨reason, armed, disarm, flag, unpinned, running, hold⟩ => ?_, fun not => kept fun ⟨reason, allowed, hold⟩ => not ?_⟩
  · exact asked (.inl (reason.resolve_right fun ⟨life, _⟩ => life retired)) (may.mpr ⟨armed, disarm, flag, unpinned, running⟩) hold
  · obtain ⟨armed, disarm, flag, unpinned, running⟩ := may.mp allowed
    exact ⟨.inl (reason.resolve_right nofun), armed, disarm, flag, unpinned, running, hold⟩

theorem deadlines_met (run : s.supply.run ≠ .starting) : s.DeadlinesMet s.time.t s.deadlines := by
  by_cases retired : s.supply.lifeCycle = .retired
  · exact deadlines_met_of_retired run retired
  have evaluates : s.evaluates = true := by simp [State.evaluates, retired, run]
  have met := State.SlotsMet.foldl evaluates (List.nodup_finRange 24)
  rw [State.deadlines]
  generalize (List.finRange 24).foldl State.slotDeadlines s = u at met ⊢
  obtain ⟨set, clear, asked, kept⟩ := scheduledActivation_requests run met.renewal met.supply met.time met.requested met.still
  refine ⟨fun life => absurd life retired, fun _ => ⟨fun i => ?_, fun x => ?_⟩, set, clear, ?_⟩
  · rw [State.slot, scheduledActivation_slots, ← State.slot, met.slot, if_pos (List.mem_finRange i)]
    simp only [lifeWarningDue_eq, expiryDue_eq]
    rfl
  · rw [scheduledActivation_queue, met.queue]
    simp only [lifeWarningDue_eq, expiryDue_eq]
    rfl
  · have may := mayCommit_of_flagged set clear ((scheduledActivation_kept u).supply.trans met.supply)
    have lapses : (∃ i ∈ List.finRange 24, ((s.slot i).lapsed s.time.t).isSome = true) ↔
        s.supply.lifeCycle ≠ .retired ∧ ∃ i, ((s.slot i).lapsed s.time.t).isSome = true := by simp [retired]
    refine ⟨fun ⟨reason, armed, disarm, flag, unpinned, running, hold⟩ => ?_, fun not => kept fun ⟨reason, allowed, hold⟩ => not ?_⟩
    · exact asked (reason.imp_right lapses.mpr) (may.mpr ⟨armed, disarm, flag, unpinned, running⟩) hold
    · obtain ⟨armed, disarm, flag, unpinned, running⟩ := may.mp allowed
      exact ⟨reason.imp_right lapses.mp, armed, disarm, flag, unpinned, running, hold⟩

/-- A hand-over changes the queue and the place list alone (R143). -/
theorem handOver_eq (s : State) (w : Write) (r : Requester) :
    ∃ q p, s.handOver w r = { s with journal := { s.journal with queue := q, place := p } } := by
  obtain ⟨-, -, eq⟩ | ⟨-, -, eq⟩ | ⟨-, -, eq⟩ := handOver_cases s w r
  · exact ⟨_, s.journal.place, eq⟩
  · exact ⟨s.journal.queue, _, eq⟩
  · exact ⟨s.journal.queue, s.journal.place, eq⟩

/-- The checkpoint test changes the time base, the queue and the place list alone (R126). -/
theorem checkpointTest_eq (s : State) :
    ∃ b q p, s.checkpointTest = { s with time := b, journal := { s.journal with queue := q, place := p } } := by
  by_cases due : s.CheckpointDue
  · obtain ⟨q, p, eq⟩ := handOver_eq s.checkpointed (.append (.time s.nextCheckpoint)) .time
    exact ⟨_, q, p, (if_pos due).trans eq⟩
  · exact ⟨s.time, s.journal.queue, s.journal.place, checkpointTest_of_not_due s due⟩

theorem risen_checkpointTest_t (s : State) : s.risen.checkpointTest.time.t = s.time.t + 1 := by
  rw [checkpointTest_time]
  rfl

theorem advanceT_eq (s : State) : s.advanceT = s.risen.checkpointTest.deadlines := rfl

/-- What the deadlines leave does not look at the time base and the journal of the state before them. -/
theorem State.DeadlinesMet.of_withTime {b : TimeBase} {j : Journal} {t : Nat}
    (met : ({ s with time := b, journal := j } : State).DeadlinesMet t u) : s.DeadlinesMet t u := by
  unfold State.DeadlinesMet at met ⊢
  exact met

/-- The deadlines of a T that has risen by 1, with the checkpoint test before them (R124, R131). -/
theorem advanceT_deadlinesMet (run : s.supply.run ≠ .starting) : s.DeadlinesMet (s.time.t + 1) s.advanceT := by
  obtain ⟨b, q, p, eq⟩ := checkpointTest_eq s.risen
  have met : s.DeadlinesMet s.risen.checkpointTest.time.t s.risen.checkpointTest.deadlines := by
    rw [eq]
    exact .of_withTime (deadlines_met run)
  rwa [risen_checkpointTest_t] at met

end

/-- Settles O9. -/
theorem tickMeetsTheDeadlines : Obligations.TickMeetsTheDeadlines := by
  intro s run deferred limit below
  have time : s.advanceT.time.t = s.time.t + 1 := by rw [advanceT_eq, (deadlines_kept _).time, risen_checkpointTest_t]
  exact ⟨s.advanceT, execTick_advances run deferred limit below, time, advanceT_deadlinesMet run⟩

end Sys2Proof.Machine
end

section
/-! PROOFS. The completion of a TIME record (R126, R127), and what a write that enters the queue at that event leaves alone (R143). -/

namespace Sys2Proof.Machine

/-! ## What entering the queue leaves alone (R79, R114, R143) -/

/-- The time base, the supply monitor and the two ports. -/
def State.outer (s : State) : TimeBase × Supply × PortRecord × PortRecord := (s.time, s.supply, s.portM, s.portL)

section
variable (s : State)

theorem handOver_outer (w : Write) (r : Requester) : (s.handOver w r).outer = s.outer := by
  obtain ⟨q, p, eq⟩ := handOver_eq s w r
  rw [eq]
  rfl

theorem handArm_outer : s.handArm.outer = s.outer := handOver_outer _ _ _

theorem handSteps_outer (steps : List AppliedStep) : (State.handSteps steps s).outer = s.outer := by
  induction steps generalizing s with
  | nil => rfl
  | cons a rest ih =>
    unfold State.handSteps
    cases s.handing with
    | queued => exact (ih _).trans (handOver_outer ..)
    | placed => exact handOver_outer ..
    | faulted => rfl

theorem tryImages_outer : s.tryImages.outer = s.outer := by
  unfold State.tryImages
  split
  · unfold State.beginRecords
    dsimp only
    split
    · exact handArm_outer _
    · exact handSteps_outer _ _
  · rfl

theorem refuseBatch_outer (reason : BatchReason) : (s.refuseBatch reason).outer = s.outer := by
  obtain ⟨_, -, same⟩ := refuseBatch_eq s reason
  rw [same]
  rfl

theorem takeSteps_outer (steps : List StepRecord) (n : Nat) : (State.takeSteps steps n s).outer = s.outer := by
  induction steps generalizing s n with
  | nil => exact tryImages_outer _
  | cons r rest ih =>
    unfold State.takeSteps
    split
    · split
      · exact refuseBatch_outer _ _
      · exact ih _ _
    · split
      · rfl
      · exact ih _ _

theorem checkingPlaced_outer (r : Requester) : (s.checkingPlaced r).outer = s.outer := by
  unfold State.checkingPlaced
  split
  · split
    · exact takeSteps_outer ..
    · rfl
  · split
    · exact handSteps_outer ..
    · rfl
  · rfl

/-- The commit's records handed over change the commit, the queue and the place list alone (R114). -/
theorem handRecords_eq (bodies : List Body) :
    ∃ c q p, State.handRecords bodies s = { s with commit := c, journal := { s.journal with queue := q, place := p } } := by
  induction bodies generalizing s with
  | nil => exact ⟨_, s.journal.queue, s.journal.place, rfl⟩
  | cons b rest ih =>
    obtain ⟨q, p, handed⟩ := handOver_eq s (.append b) (.commitRecord rest.isEmpty)
    unfold State.handRecords
    cases s.handing with
    | queued =>
      obtain ⟨c, q', p', eq⟩ := ih { s with journal := { s.journal with queue := q, place := p } }
      refine ⟨c, q', p', ?_⟩
      dsimp only
      rw [handed, eq]
    | placed => exact ⟨_, q, p, congrArg (State.setRest · rest) handed⟩
    | faulted => exact ⟨s.commit, s.journal.queue, s.journal.place, rfl⟩

theorem commitPlaced_eq :
    ∃ c q p, s.commitPlaced = { s with commit := c, journal := { s.journal with queue := q, place := p } } := by
  have same : ∃ c q p, s = { s with commit := c, journal := { s.journal with queue := q, place := p } } :=
    ⟨s.commit, s.journal.queue, s.journal.place, rfl⟩
  unfold State.commitPlaced
  split
  next c _ =>
    split
    · exact handRecords_eq s c.rest
    · exact same
  next => exact same

/-- A write of no batch that enters the queue changes the commit, the queue and the place list alone. -/
theorem placedActs_eq {e : Entry} (other : e.requester.ofBatch = false) :
    ∃ c q p, s.placedActs e = { s with commit := c, journal := { s.journal with queue := q, place := p } } := by
  have same : ∃ c q p, s = { s with commit := c, journal := { s.journal with queue := q, place := p } } :=
    ⟨s.commit, s.journal.queue, s.journal.place, rfl⟩
  obtain ⟨w, r⟩ := e
  unfold State.placedActs
  cases r with
  | commitRecord last => exact commitPlaced_eq s
  | checkBank attached i =>
    obtain rfl : attached = false := other
    exact same
  | checkStep attached last =>
    obtain rfl : attached = false := other
    exact same
  | _ => exact same

theorem placedActs_outer (e : Entry) : (s.placedActs e).outer = s.outer := by
  unfold State.placedActs
  split
  · obtain ⟨c, q, p, eq⟩ := commitPlaced_eq s
    rw [eq]
    rfl
  · exact checkingPlaced_outer s _

end

/-! ## The requester of a TIME record (R127) -/

section
variable {s : State} {v : Nat}

/-- Journal `k` is `j` but for the queue, the place list and the failures of the entry in service. -/
def Journal.SameHeld (j k : Journal) : Prop := ∃ q p n, k = { j with queue := q, place := p, failures := n }

theorem Journal.SameHeld.trans {j k l : Journal} (first : j.SameHeld k) (then' : k.SameHeld l) : j.SameHeld l := by
  obtain ⟨_, _, _, rfl⟩ := first
  obtain ⟨q, p, n, rfl⟩ := then'
  exact ⟨q, p, n, rfl⟩

theorem Journal.AppendStands.of_sameHeld {j k l : Journal} {keep : Bool} {b : Body} (stands : j.AppendStands keep b k)
    (same : k.SameHeld l) : j.AppendStands keep b l := by
  obtain ⟨q, p, n, rfl⟩ := same
  exact stands

theorem checkpointTest_sameHeld (s : State) : s.journal.SameHeld s.checkpointTest.journal := by
  obtain ⟨b, q, p, eq⟩ := checkpointTest_eq s
  exact ⟨q, p, s.journal.failures, by rw [eq]⟩

theorem advanceT_sameHeld (s : State) : s.journal.SameHeld s.advanceT.journal := by
  rw [advanceT_eq, (deadlines_kept _).journal]
  exact checkpointTest_sameHeld s.risen

theorem timeWritten_sameHeld (s : State) : s.journal.SameHeld s.timeWritten.journal := by
  rw [timeWritten_eq]
  split
  · exact (advanceT_sameHeld s.bounded).trans (checkpointTest_sameHeld _)
  · exact checkpointTest_sameHeld s.bounded

/-- T at the completion of a TIME record: a deferred tick is taken (R127). -/
def State.nextT (s : State) : Nat := if s.time.deferred then s.time.t + 1 else s.time.t

/-- A TIME record with bound `v` is followed by the next one at its completion (R126). -/
abbrev State.Follows (s : State) (v : Nat) : Prop := (s.supply.run = .run ∨ s.supply.run = .flush) ∧ v < LIMIT ∧ v ≤ s.nextT + 32

/-- The time base that a TIME record leaves, with the checkpoint in flight that follows it (R127). -/
def State.timeAfter (s : State) (v : Nat) (next : Option Nat) : TimeBase :=
  { s.time with t := s.nextT, tb := v, deferred := false, checkpoint := next }

/-- The state in which the checkpoint test at the completion of a TIME record is first made (R127). -/
theorem timeWritten_first (flight : s.time.checkpoint = some v) :
    ∃ x : State, x.time = s.timeAfter v none ∧ x.supply = s.supply ∧ x.journal = s.journal ∧
      (s.timeWritten.time = x.checkpointTest.time ∧ s.timeWritten.journal = x.checkpointTest.journal) := by
  have bounded : s.bounded.time = { s.time with tb := v, deferred := false, checkpoint := none } := by simp [State.bounded, flight]
  rw [timeWritten_eq]
  cases deferred : s.time.deferred with
  | false => exact ⟨s.bounded, by simp [bounded, State.timeAfter, State.nextT, deferred], rfl, rfl, rfl, rfl⟩
  | true =>
    refine ⟨s.bounded.risen, by simp [State.risen, bounded, State.timeAfter, State.nextT, deferred], rfl, rfl, ?_⟩
    have kept := deadlines_kept s.bounded.risen.checkpointTest
    have still : s.bounded.advanceT.checkpointTest = s.bounded.advanceT := by
      refine checkpointTest_of_not_due _ fun ⟨run, clear, below, near⟩ => ?_
      rw [advanceT_eq, kept.time, checkpointTest_time] at clear below near
      rw [advanceT_eq, kept.supply, checkpointTest_supply] at run
      by_cases due : s.bounded.risen.CheckpointDue
      · simp [due] at clear
      · exact due ⟨run, by simp [State.risen, bounded], below, near⟩
    rw [if_pos rfl, still, advanceT_eq, kept.time, kept.journal]
    exact ⟨rfl, rfl⟩

theorem timeWritten_of_follows (flight : s.time.checkpoint = some v) (follows : s.Follows v) :
    s.timeWritten.time = s.timeAfter v (some (min (s.nextT + 64) LIMIT)) ∧
    s.timeWritten.journal = (s.handed (.append (.time (min (s.nextT + 64) LIMIT))) .time).journal := by
  obtain ⟨x, time, supply, journal, eqTime, eqJournal⟩ := timeWritten_first flight
  obtain ⟨run, below, near⟩ := follows
  have due : x.CheckpointDue := ⟨by rwa [supply], by rw [time]; rfl, by rw [time]; exact below, by rw [time]; exact near⟩
  have next : x.nextCheckpoint = min (s.nextT + 64) LIMIT := by rw [State.nextCheckpoint, time]; rfl
  rw [eqTime, eqJournal, checkpointTest_time, checkpointTest_journal, if_pos due, if_pos due, next, time]
  refine ⟨rfl, ?_⟩
  simp only [State.handed, journal]
  split <;> simp

theorem timeWritten_of_not_follows (flight : s.time.checkpoint = some v) (last : ¬ s.Follows v) :
    s.timeWritten.time = s.timeAfter v none ∧ s.timeWritten.journal = s.journal := by
  obtain ⟨x, time, supply, journal, eqTime, eqJournal⟩ := timeWritten_first flight
  have due : ¬ x.CheckpointDue := fun ⟨run, _, below, near⟩ => by
    rw [time] at below near
    exact last ⟨by rwa [supply] at run, below, near⟩
  rw [eqTime, eqJournal, checkpointTest_of_not_due x due]
  exact ⟨time, journal⟩

/-- What the deadlines leave does not look at the time base, the commit and the journal of the state after them either. -/
theorem State.DeadlinesMet.withBeyond {u : State} {t : Nat} (met : s.DeadlinesMet t u) (b : TimeBase) (c : Option Commit) (j : Journal) :
    s.DeadlinesMet t { u with time := b, commit := c, journal := j } := by
  unfold State.DeadlinesMet at met ⊢
  exact met

theorem timeWritten_deadlinesMet (deferred : s.time.deferred = true) (run : s.supply.run ≠ .starting) :
    s.DeadlinesMet (s.time.t + 1) s.timeWritten := by
  have met : s.DeadlinesMet (s.time.t + 1) s.bounded.advanceT := .of_withTime (advanceT_deadlinesMet (s := s.bounded) run)
  obtain ⟨b, q, p, eq⟩ := checkpointTest_eq s.bounded.advanceT
  rw [timeWritten_eq, if_pos deferred, eq]
  exact met.withBeyond b _ _

/-- With no deferred tick the completion of a TIME record changes the time base, the queue and the place list alone (R127). -/
theorem timeWritten_of_not_deferred (deferred : s.time.deferred = false) :
    ∃ b q p, s.timeWritten = { s with time := b, journal := { s.journal with queue := q, place := p } } := by
  rw [timeWritten_eq, if_neg (by simp [deferred])]
  exact checkpointTest_eq s.bounded

theorem timeWritten_frame (s : State) :
    s.timeWritten.supply = s.supply ∧ s.timeWritten.portM = s.portM ∧ s.timeWritten.portL = s.portL := by
  have kept := deadlines_kept s.bounded.risen.checkpointTest
  rw [timeWritten_eq, checkpointTest_supply, checkpointTest_portM, checkpointTest_portL]
  split
  · rw [advanceT_eq, kept.supply, kept.portM, kept.portL, checkpointTest_supply, checkpointTest_portM, checkpointTest_portL]
    exact ⟨rfl, rfl, rfl⟩
  · exact ⟨rfl, rfl, rfl⟩

/-- The state as a TIME record that completes leaves it to its requester (R144). -/
def State.timeStored (s : State) (v : Nat) (rest : List Entry) : State :=
  { s with journal := Journal.refilled { s.journal.appended (.time v) true with queue := rest, failures := 0 } }

theorem completeEntry_time (s : State) (v : Nat) (rest : List Entry) : s.completeEntry ⟨.append (.time v), .time⟩ rest =
    match s.journal.place.head? with
    | some x => (s.timeStored v rest).timeWritten.placedActs x
    | none => (s.timeStored v rest).timeWritten := rfl

theorem completeEntry_time_outer (s : State) (v : Nat) (rest : List Entry) :
    (s.completeEntry ⟨.append (.time v), .time⟩ rest).outer = (s.timeStored v rest).timeWritten.outer := by
  rw [completeEntry_time]
  split
  · exact placedActs_outer _ _
  · rfl

/-- Where no write of checking waits for a place, what enters the queue changes the commit, the queue and the place list alone. -/
theorem completeEntry_time_eq (v : Nat) (rest : List Entry) (other : ∀ e ∈ s.journal.place, e.requester.ofBatch = false) :
    ∃ c q p, s.completeEntry ⟨.append (.time v), .time⟩ rest =
      { (s.timeStored v rest).timeWritten with
        commit := c, journal := { (s.timeStored v rest).timeWritten.journal with queue := q, place := p } } := by
  rw [completeEntry_time]
  split
  next x head => exact placedActs_eq _ (other x (List.mem_of_mem_head? head))
  next => exact ⟨_, _, _, rfl⟩

theorem execWriteComplete_eq {e : Entry} {rest : List Entry} (queue : s.journal.queue = e :: rest) (copy : s.copyDue e = false) :
    exec .writeComplete s = .next (s.completeEntry e rest).settle := by
  change execWriteComplete s = _
  rw [execWriteComplete, queue]
  exact if_neg (by simp [copy])

end

/-- Settles O11. -/
theorem timeRecordCompletes : Obligations.TimeRecordCompletes := by
  intro s v rest queue copy flight
  have event := execWriteComplete_eq (e := ⟨.append (.time v), .time⟩) queue (by simp [State.copyDue, copy])
  have outer := completeEntry_time_outer s v rest
  have store := completeEntry_nonvolatile s ⟨.append (.time v), .time⟩ rest
  have held := completeEntry_time_eq (s := s) v rest
  have alone : s.journal.place = [] → s.completeEntry ⟨.append (.time v), .time⟩ rest = (s.timeStored v rest).timeWritten :=
    fun place => by rw [completeEntry_time, place]; rfl
  obtain ⟨supply, portM, portL⟩ := timeWritten_frame (s.timeStored v rest)
  have follows := timeWritten_of_follows (s := s.timeStored v rest) (v := v) flight
  have last := timeWritten_of_not_follows (s := s.timeStored v rest) (v := v) flight
  generalize s.completeEntry ⟨.append (.time v), .time⟩ rest = u at *
  have time : u.time = (s.timeStored v rest).timeWritten.time := congrArg Prod.fst outer
  have next : u.time = s.timeAfter v (if s.Follows v then some (min (s.nextT + 64) LIMIT) else none) := by
    rw [time]
    by_cases due : s.Follows v
    · rw [if_pos due]
      exact (follows due).1
    · rw [if_neg due]
      exact (last due).1
  obtain ⟨ringStands, ringStays, -⟩ := s.journal.appended_stands true (.time v)
  have ring : u.journal.ring = (s.journal.appended (.time v) true).ring := congrArg Prod.fst store
  have banks : u.journal.banks = s.journal.banks := congrArg Prod.snd store
  refine ⟨u, event, settle_time u, by rw [next]; rfl, by rw [next]; rfl, by rw [next]; rfl, by rw [next]; rfl, by rw [next]; rfl,
    fun place room => ?_, ?_, ?_, ?_, banks, by rw [ring]; exact ringStands, fun k other => by rw [ring]; exact ringStays k other,
    fun other => ⟨?_, fun deferred run => ?_, fun deferred => ?_⟩⟩
  · obtain rfl := alone place
    have queued : (s.timeStored v rest).journal.queue = rest := by
      rw [State.timeStored, refilled_of_place_nil (by exact place)]
    rw [next]
    by_cases due : s.Follows v
    · rw [(follows due).2, State.handed, if_pos (by rwa [queued]), if_pos due]
      exact congrArg (· ++ [_]) queued
    · rw [(last due).2, if_neg due, queued]
      exact (List.append_nil rest).symm
  · exact (congrArg (fun x => x.2.1) outer).trans supply
  · exact (congrArg (fun x => x.2.2.1) outer).trans portM
  · exact (congrArg (fun x => x.2.2.2) outer).trans portL
  · obtain ⟨c, q, p, rfl⟩ := held other
    have stored : (s.journal.appended (.time v) true).SameHeld (s.timeStored v rest).journal := ⟨_, _, 0, rfl⟩
    have written := stored.trans (timeWritten_sameHeld (s.timeStored v rest))
    exact (s.journal.appended_stands true (.time v)).of_sameHeld (written.trans ⟨q, p, _, rfl⟩)
  · obtain ⟨c, q, p, rfl⟩ := held other
    have met := timeWritten_deadlinesMet (s := s.timeStored v rest) deferred run
    exact State.DeadlinesMet.of_withTime (b := s.time) (met.withBeyond _ _ _)
  · obtain ⟨c, q, p, rfl⟩ := held other
    obtain ⟨b, q', p', eq⟩ := timeWritten_of_not_deferred (s := s.timeStored v rest) deferred
    rw [eq]
    exact ⟨rfl, rfl, rfl, rfl, rfl⟩

end Sys2Proof.Machine
end

section
/-! PROOFS. The release of PFWN (R165, R166): the return to RUN, and the RETIRED erase that goes on (R176, R177). -/

namespace Sys2Proof.Machine

/-! ## The RETIRED erase (R176) -/

section
variable {s : State}

/-- The erase changes its progress, the queue and the place list alone. -/
theorem eraseOn_eq (n : Nat) (s : State) : ∃ e q p, State.eraseOn n s =
    { s with supply := { s.supply with erase := e }, journal := { s.journal with queue := q, place := p } } := by
  have same (s : State) : ∃ e q p, s =
      { s with supply := { s.supply with erase := e }, journal := { s.journal with queue := q, place := p } } :=
    ⟨s.supply.erase, s.journal.queue, s.journal.place, rfl⟩
  induction n generalizing s with
  | zero => exact same s
  | succ n ih =>
    unfold State.eraseOn
    split
    next i item _ =>
      split
      · obtain ⟨e, q, p, eq⟩ := ih (s.setErase (Erase.after i item))
        exact ⟨e, q, p, eq⟩
      next w _ =>
        split
        · obtain ⟨q, p, eq⟩ := handOver_eq s w .erase
          exact ⟨s.supply.erase, q, p, eq⟩
        · exact same s
    · exact same s
    · exact same s

/-- An item with a write is handed over where the run state lets it (R176). -/
theorem eraseGo_of_item {i : Fin 24} {item : Fin 4} {w : Write} (at_ : s.supply.erase = .at i item) (due : s.eraseItem i item = some w)
    (may : s.eraseMayHand = true) : s.eraseGo = s.handOver w .erase := by
  rw [State.eraseGo, State.eraseOn, at_]
  dsimp only
  rw [due]
  exact if_pos may

theorem eraseGo_of_ended (ended : s.supply.erase = .none ∨ s.supply.erase = .complete) : s.eraseGo = s := by
  rw [State.eraseGo, State.eraseOn]
  rcases ended with ended | ended <;> rw [ended]

theorem handed_eraseBusy (w : Write) (r : Requester) : (s.handed w r).eraseBusy = (s.eraseBusy || decide (r = .erase)) := by
  unfold State.handed State.eraseBusy
  split
  · simp [Bool.or_comm, Bool.or_left_comm]
  · simp [Bool.or_assoc]

end

/-! ## The return to RUN (R165) -/

section
variable {s : State}

/-- The part with PFWN released in RUN (R165). -/
def State.released (s : State) : State := (s.setWarning false).setRun .run

/-- The return to RUN before the event settles (R165). -/
def State.returned (s : State) : State := s.released.checkpointTest.commitStart.eraseResume

theorem execPfwnRelease_of_drain (run : s.supply.run = .flush ∨ s.supply.run = .quiescent) (held : s.supply.warning = true) :
    exec .pfwnRelease s = .next s.returned.settle := by
  change execPfwnRelease s = _
  rcases run with run | run <;> simp only [execPfwnRelease, held, run] <;> rfl

theorem execPfwnRelease_of_stopped (run : s.supply.run = .fault ∨ s.supply.run = .starting) (held : s.supply.warning = true) :
    exec .pfwnRelease s = .next (s.setWarning false) := by
  change execPfwnRelease s = _
  rw [execPfwnRelease, if_pos held]
  rcases run with run | run <;> rw [run]

/-- The commit start test changes the arbiter alone (R105). -/
theorem commitStart_eq (s : State) : ∃ a, s.commitStart = { s with arbiter := a } := by
  unfold State.commitStart
  split
  · exact ⟨_, rfl⟩
  · exact ⟨s.arbiter, rfl⟩

theorem eraseResume_eq (s : State) : ∃ e q p, s.eraseResume =
    { s with supply := { s.supply with erase := e }, journal := { s.journal with queue := q, place := p } } := by
  unfold State.eraseResume
  split
  · exact ⟨s.supply.erase, s.journal.queue, s.journal.place, rfl⟩
  · exact eraseOn_eq 97 s

theorem settle_supply_of_not_flush (run : s.supply.run ≠ .flush) : s.settle.supply = s.supply := by
  have granted := supply_outsideGrants.grants s (s.arbiter.resumed.length + 6)
  rw [State.settle, State.drain, if_neg fun both => run (by rw [← granted]; exact both.1), granted]

/-- Handing a write over reads the journal alone. -/
theorem handed_journal_congr {s u : State} (journal : u.journal = s.journal) (w : Write) (r : Requester) :
    (u.handed w r).journal = (s.handed w r).journal := by
  unfold State.handed
  rw [journal]
  split <;> rfl

/-- The checkpoint test and the commit start test of a return to RUN change the time base, the queue, the place list and the arbiter. -/
theorem released_tests_eq (s : State) : ∃ b a q p, s.released.checkpointTest.commitStart =
    { s.released with time := b, arbiter := a, journal := { s.journal with queue := q, place := p } } := by
  obtain ⟨b, q, p, tested⟩ := checkpointTest_eq s.released
  obtain ⟨a, started⟩ := commitStart_eq s.released.checkpointTest
  rw [started, tested]
  exact ⟨b, a, q, p, rfl⟩

/-- The hold after a return to RUN (R105, R165). -/
theorem returned_arbiter (s : State) : s.returned.arbiter = s.released.checkpointTest.commitStart.arbiter := by
  obtain ⟨e, q, p, eq⟩ := eraseResume_eq s.released.checkpointTest.commitStart
  rw [State.returned, eq]

end

/-- Settles O7. -/
theorem pfwnReleaseReturnsToRun : Obligations.PfwnReleaseReturnsToRun := by
  intro s
  refine ⟨fun clear => if_neg (by simp [clear]), execPfwnRelease_of_stopped, fun run held => ?_⟩
  intro due timed
  have dueIff : s.released.CheckpointDue ↔ due := and_iff_right (.inl rfl)
  have whenDue (now : due) : timed = s.handed (.append (.time (min (s.time.t + 64) LIMIT))) .time := if_pos now
  have whenNot (later : ¬ due) : timed = s := if_neg later
  have journal : s.released.checkpointTest.commitStart.journal = timed.journal := by
    rw [State.commitStart_journal, checkpointTest_journal]
    by_cases now : due
    · rw [if_pos (dueIff.mpr now), whenDue now]
      exact handed_journal_congr (s := s) (u := s.released) rfl _ _
    · rw [if_neg (mt dueIff.mp now), whenNot now]
      rfl
  have busy : s.released.checkpointTest.commitStart.eraseBusy = s.eraseBusy := by
    have same : timed.eraseBusy = s.eraseBusy := by
      by_cases now : due
      · rw [whenDue now, handed_eraseBusy]
        simp
      · rw [whenNot now]
    rw [← same, State.eraseBusy, State.eraseBusy, journal]
  obtain ⟨e, q, p, resumed⟩ := eraseResume_eq s.released.checkpointTest.commitStart
  obtain ⟨b, a, q', p', tests⟩ := released_tests_eq s
  have time : s.returned.time = { s.time with checkpoint := if due then some (min (s.time.t + 64) LIMIT) else s.time.checkpoint } := by
    rw [State.returned, resumed]
    simp only [State.commitStart_time, checkpointTest_time, dueIff]
    rfl
  have returned : s.returned = { s with
      supply := { s.supply with run := .run, warning := false, erase := e }, time := s.returned.time, arbiter := s.returned.arbiter
      journal := { s.journal with queue := q, place := p } } := by
    rw [State.returned, resumed, tests]
    rfl
  have arbiter := returned_arbiter s
  have running : s.returned.supply.run = .run := by rw [returned]
  have settled : s.returned.settle.supply = s.returned.supply := settle_supply_of_not_flush (by simp [running])
  refine ⟨s.returned, execPfwnRelease_of_drain run held, running, by rw [returned], by simp [State.acknowledges, settled, running],
    by rw [returned], by rw [time], by rw [time], by rw [time], by rw [time], fun stays => ?_, fun i item w at_ free item_ => ?_,
    fun armed disarm flag unpinned => ?_, fun other => ?_,
    by rw [returned], by rw [returned], by rw [returned], by rw [returned], by rw [returned], by rw [returned], by rw [returned],
    by rw [returned], by rw [returned], by rw [returned]⟩
  · rw [State.returned, State.eraseResume]
    split
    · exact journal
    next idle =>
      have ended : s.supply.erase = .none ∨ s.supply.erase = .complete := by
        rcases stays with none | complete | stays
        · exact .inl none
        · exact .inr complete
        · exact absurd (busy.trans stays) idle
      rw [eraseGo_of_ended (by rwa [tests]), journal]
  · have here : s.released.checkpointTest.commitStart.supply.erase = .at i item := by rwa [tests]
    have due : s.released.checkpointTest.commitStart.eraseItem i item = some w := by rwa [tests]
    have may : s.released.checkpointTest.commitStart.eraseMayHand = true := by rw [tests]; rfl
    have taken : s.released.checkpointTest.commitStart.supply.run = .run := by rw [tests]; rfl
    rw [State.returned, State.eraseResume, if_neg (by simp [busy, free]), eraseGo_of_item here due may,
      handOver_eq_handed (by rw [taken]; nofun) (by rw [taken]; nofun), handed_journal_congr journal]
  · obtain ⟨asked, -⟩ := commitStart_arbiter s.released.checkpointTest
    rw [arbiter]
    obtain ⟨b, q, p, tested⟩ := checkpointTest_eq s.released
    by_cases hold : s.released.checkpointTest.arbiter.hold = .none
    · rw [asked (by rw [tested]; exact ⟨armed, disarm, flag, unpinned, rfl⟩) hold]
      nofun
    · rwa [commitStart_of_hold hold]
  · have kept := (commitStart_arbiter s.released.checkpointTest).2
    obtain ⟨b, q, p, tested⟩ := checkpointTest_eq s.released
    rw [arbiter, kept fun ⟨may, _⟩ => other (by rw [tested] at may; exact may.1), tested]
    rfl

end Sys2Proof.Machine
end

section
/-! PROOFS. The end of checking (R87 to R89, R95, R96): the records handed over one after another, ARMED, and the DISARM. -/

namespace Sys2Proof.Machine

/-! ## The completion of a write while an operation is in the engine (R144) -/

section
variable {s : State}

/-- With no write waiting for a place, the requester of a write that completes acts, and nothing is granted while the engine is busy. -/
theorem execWriteComplete_of_engine {e : Entry} {rest : List Entry} {t : State} (busy : s.engine.isSome = true)
    (copy : s.copyDue e = false) (place : s.journal.place = []) (queue : s.journal.queue = e :: rest)
    (acts : State.requesterActs { s with journal := { s.storeEffect e with queue := rest, failures := 0 } } e = t)
    (engine : t.engine = s.engine) : exec .writeComplete s = .next t := by
  rw [execWriteComplete_of_place_nil queue copy place, acts, settle_of_engine (by rwa [engine])]

end

/-! ## Records handed over one after another (R88, R143) -/

/-- The state with what it has handed over: what the queue has room for is in the queue, the next entry waits for a place. -/
def State.queued (s : State) (entries : List Entry) : State :=
  { s with journal := { s.journal with
      queue := s.journal.queue ++ entries.take (8 - s.journal.queue.length)
      place := s.journal.place ++ (entries.drop (8 - s.journal.queue.length)).take 1 } }

section
variable {s : State}

theorem queued_cons_of_room (room : s.journal.queue.length < 8) (e : Entry) (rest : List Entry) :
    s.queued (e :: rest) =
      State.queued { s with journal := { s.journal with queue := s.journal.queue ++ [e] } } rest := by
  have left : 8 - s.journal.queue.length = 7 - s.journal.queue.length + 1 := by omega
  simp [State.queued, left]

/-- STEP records handed over outside FAULT and STARTING (R88, R143). -/
theorem handSteps_eq (taken : s.supply.run ≠ .fault ∧ s.supply.run ≠ .starting) (bound : s.journal.queue.length ≤ 8) (steps : List AppliedStep) :
    State.handSteps steps s =
      (s.queued (entriesOf (.checkStep true) (steps.map (.step s.renewal.sequence)))).setStage
        (.records (steps.drop (8 - s.journal.queue.length + 1))) := by
  induction steps generalizing s with
  | nil => simp [State.handSteps, State.queued, entriesOf]
  | cons a rest ih =>
    unfold State.handSteps
    by_cases room : s.journal.queue.length < 8
    · have handing : s.handing = .queued := by simp [State.handing, taken, room]
      have handed := handOver_eq_handed taken.1 taken.2 (.append (.step s.renewal.sequence a)) (.checkStep true rest.isEmpty)
      rw [State.handed, if_pos room] at handed
      have shorter : 7 - s.journal.queue.length + 1 = 8 - s.journal.queue.length := by omega
      have step := ih (s := { s with journal := { s.journal with
        queue := s.journal.queue ++ [⟨.append (.step s.renewal.sequence a), .checkStep true rest.isEmpty⟩] } }) taken (by simp; omega)
      rw [handing]
      dsimp only
      rw [handed, step, List.map_cons, entriesOf, queued_cons_of_room room, List.isEmpty_map]
      simp [shorter]
    · have handing : s.handing = .placed := by simp [State.handing, taken, room]
      have handed := handOver_eq_handed taken.1 taken.2 (.append (.step s.renewal.sequence a)) (.checkStep true rest.isEmpty)
      rw [State.handed, if_neg room] at handed
      have full : 8 - s.journal.queue.length = 0 := by omega
      rw [handing]
      dsimp only
      rw [handed]
      simp [State.queued, entriesOf, full]

/-- The activation tick of a batch whose ARM record is handed over now (R88). -/
def State.armTick (s : State) : Option Nat :=
  s.renewal.header.bind fun h => h.delay.bind fun d => if d = 0 then none else some (s.time.t + d)

theorem handArm_eq (s : State) : s.handArm =
    State.handOver { s with renewal := { s.renewal with activationTick := s.armTick, checking := some .arm } }
      (.append (.arm s.renewal.sequence s.renewal.named s.armTick s.renewal.result.steps)) .checkArm := by
  unfold State.handArm State.armTick
  cases s.renewal.header <;> rfl

/-- The ARM record handed over outside FAULT and STARTING, with room in the queue (R88). -/
theorem handArm_of_room (taken : s.supply.run ≠ .fault ∧ s.supply.run ≠ .starting) (room : s.journal.queue.length < 8) :
    s.handArm = { s with
      renewal := { s.renewal with activationTick := s.armTick, checking := some .arm }
      journal := { s.journal with queue := s.journal.queue ++
        [⟨.append (.arm s.renewal.sequence s.renewal.named s.armTick s.renewal.result.steps), .checkArm⟩] } } := by
  rw [handArm_eq, handOver_eq_handed (by exact taken.1) (by exact taken.2), State.handed, if_pos (by exact room)]

/-! ## A bank write of the batch (R87) -/

/-- The state with the NEXT cell of slot `i` READY (R87). -/
def State.nextReady (s : State) (i : Fin 24) (n : Next) : State :=
  s.setSlot i { s.slot i with next := some { n with ready := true } }

variable {i : Fin 24} {n : Next}

theorem imageWritten_eq (next : (s.slot i).next = some n) : s.imageWritten i = (s.nextReady i n).tryImages := by
  simp [State.imageWritten, State.nextReady, next]

theorem nextReady_imagesDone : (s.nextReady i n).imagesDone = true ↔ ∀ j, j ≠ i → ∀ m ∈ (s.slot j).next, m.ready = true := by
  have here (j : Fin 24) : ((s.nextReady i n).slot j).next.all (·.ready) = true ↔ (j ≠ i → ∀ m ∈ (s.slot j).next, m.ready = true) := by
    by_cases same : j = i
    · subst same
      simp [State.nextReady]
    · rw [State.nextReady, s.slot_setSlot_ne (Ne.symm same)]
      cases (s.slot j).next <;> simp [same]
  simp only [State.imagesDone, List.all_eq_true, List.mem_finRange, here, true_implies]

/-- The bank of a slot's NEXT cell. -/
def State.nextBank (s : State) (j : Fin 24) : Fin 3 := ((s.slot j).next.map Next.bank).getD 0

theorem appliedSteps_eq (s : State) : s.appliedSteps = (s.renewal.buffer.zip s.renewal.result.steps).filterMap fun e =>
    if e.2 = .applied then some (e.1.applied s.nextBank) else none := by
  unfold State.appliedSteps
  congr 1
  funext ⟨r, outcome⟩
  cases outcome with
  | applied =>
    simp only [if_true]
    congr 2
    funext j
    rw [State.nextBank]
    cases (s.slot j).next <;> rfl
  | dropped reason => rfl

/-- A READY cell keeps its bank, so the applied steps are those of the NEXT cells as they were (R88). -/
theorem nextReady_appliedSteps (next : (s.slot i).next = some n) : (s.nextReady i n).appliedSteps = s.appliedSteps := by
  have bank : (s.nextReady i n).nextBank = s.nextBank := funext fun j => by
    by_cases same : j = i
    · subst same
      simp [State.nextReady, State.nextBank, next]
    · rw [State.nextBank, State.nextReady, s.slot_setSlot_ne (Ne.symm same), State.nextBank]
  rw [appliedSteps_eq, appliedSteps_eq, bank]
  rfl

theorem tryImages_of_open (opened : ¬ (s.renewal.checking = some .images ∧ s.imagesDone = true)) : s.tryImages = s := if_neg opened

/-- With every NEXT cell READY and no step applied, the ARM record follows at once (R88). -/
theorem tryImages_of_no_step (images : s.renewal.checking = some .images) (done : s.imagesDone = true) (none : s.appliedSteps = []) :
    s.tryImages = State.handArm { s with renewal := { s.renewal with applied := [] } } := by
  rw [State.tryImages, if_pos ⟨images, done⟩, State.beginRecords, none]
  rfl

/-- With every NEXT cell READY the applied steps become the STEP records (R88). -/
theorem tryImages_of_steps (images : s.renewal.checking = some .images) (done : s.imagesDone = true) (some_ : s.appliedSteps ≠ []) :
    s.tryImages = State.handSteps s.appliedSteps { s with renewal := { s.renewal with applied := s.appliedSteps } } := by
  rw [State.tryImages, if_pos ⟨images, done⟩, State.beginRecords]
  exact if_neg (by simpa using some_)

/-- The state in which a bank write has succeeded and left the queue, before its requester acts (R144). -/
def State.imageStored (s : State) (i : Fin 24) (k : Fin 3) (g : Nat) (key : Key) (rest : List Entry) : State :=
  { s with journal := { s.journal.writeBank i k g key with queue := rest, failures := 0 } }

/-- A bank write of the batch that completes leaves its cell READY, and makes the test of the images (R87). -/
theorem execWriteComplete_image {k : Fin 3} {g : Nat} {key : Key} {rest : List Entry} {t : State} (busy : s.engine.isSome = true)
    (place : s.journal.place = []) (queue : s.journal.queue = ⟨.bankWrite i k g key, .checkBank true i⟩ :: rest)
    (next : (s.slot i).next = some n)
    (tried : ((s.imageStored i k g key rest).nextReady i n).tryImages = t)
    (engine : t.engine = s.engine) : exec .writeComplete s = .next t :=
  execWriteComplete_of_engine busy rfl place queue ((imageWritten_eq (by exact next)).trans tried) engine

end

/-! ## ARMED (R89, R96, R104) -/

/-- The renewal engine once the batch is ARMED, before scheduled activation (R89). -/
def Renewal.armed (r : Renewal) : Renewal :=
  { r with state := .armed, buffer := [], authenticator := none, checking := none, activation := false,
           disarm := false, result := { r.result with outcome := .armed } }

/-- The state once the batch is ARMED, before scheduled activation (R89). -/
def State.armedPlain (s : State) : State :=
  { s with
    renewal := s.renewal.armed
    queueM := arrive s.queueM ⟨.batchArmed, none, none, some s.renewal.sequence, s.time.t⟩
    queueL := arrive s.queueL ⟨.batchArmed, none, none, some s.renewal.sequence, s.time.t⟩ }

section
variable {s : State}

theorem canceller_congr {t : State} (portM : t.portM = s.portM) (portL : t.portL = s.portL) : t.canceller = s.canceller := by
  unfold State.canceller
  rw [portM, portL]

theorem armed_eq (s : State) : s.armed =
    if s.canceller.isSome then s.armedPlain.scheduledActivation.beginDisarm else s.armedPlain.scheduledActivation := by
  have kept := scheduledActivation_kept s.armedPlain
  rw [← canceller_congr (s := s) kept.portM kept.portL]
  rfl

theorem armed_of_no_canceller (cancel : s.canceller = none) : s.armed = s.armedPlain.scheduledActivation := by
  rw [armed_eq, cancel]
  rfl

theorem armed_of_canceller {p : Port} (cancel : s.canceller = some p) : s.armed = s.armedPlain.scheduledActivation.beginDisarm := by
  rw [armed_eq, cancel]
  rfl

/-- Scheduled activation changes the flag and the arbiter alone (R104). -/
theorem scheduledActivation_eq (s : State) : ∃ a f, s.scheduledActivation =
    { s with arbiter := a, renewal := { s.renewal with activation := f } } := by
  unfold State.scheduledActivation
  split
  · split
    · obtain ⟨a, eq⟩ := commitStart_eq { s with renewal := { s.renewal with activation := true } }
      exact ⟨a, true, eq⟩
    · exact ⟨s.arbiter, s.renewal.activation, rfl⟩
  · exact ⟨s.arbiter, s.renewal.activation, rfl⟩

/-- The hold, once a requested one is withdrawn (R96, R109). -/
def Arbiter.withdrawn (a : Arbiter) : Arbiter := { a with hold := if a.hold = .requested then .none else a.hold }

theorem commitStart_withdrawn (s : State) : s.commitStart.arbiter.withdrawn = s.arbiter.withdrawn := by
  unfold State.commitStart
  split
  next due =>
    obtain ⟨-, -, -, -, -, hold⟩ := due
    simp [Arbiter.withdrawn, hold]
  next => rfl

theorem scheduledActivation_withdrawn (s : State) : s.scheduledActivation.arbiter.withdrawn = s.arbiter.withdrawn := by
  unfold State.scheduledActivation
  split
  · split
    · exact commitStart_withdrawn _
    · rfl
  · rfl

/-- The flag of a batch that has just become ARMED is set where its activation tick is reached (R104). -/
theorem armedPlain_activation (s : State) : s.armedPlain.scheduledActivation.renewal.activation =
    s.renewal.activationTick.any fun a => decide (a ≤ s.time.t) && decide (s.supply.run ≠ .starting) := by
  cases tick : s.renewal.activationTick with
  | none =>
    rw [scheduledActivation_of_not_reached fun ⟨_, _, _, a, reached, _⟩ => by simp [State.armedPlain, Renewal.armed, tick] at reached]
    rfl
  | some a =>
    by_cases due : a ≤ s.time.t ∧ s.supply.run ≠ .starting
    · obtain ⟨due, run⟩ := due
      rw [scheduledActivation_of_reached (s := s.armedPlain) rfl tick run rfl rfl due, State.commitStart_renewal]
      simp [due, run]
    · have still : s.armedPlain.scheduledActivation = s.armedPlain := by
        unfold State.scheduledActivation
        split
        next b reached =>
          obtain rfl : a = b := Option.some.inj (tick.symm.trans reached)
          exact if_neg fun ⟨_, _, _, reached, run⟩ => due ⟨reached, run⟩
        next => rfl
      rw [still]
      simpa [State.armedPlain, Renewal.armed] using due

/-- The state of a batch whose CANCEL waited for the ARM record (R96). -/
theorem armed_cancelled (s : State) : s.armedPlain.scheduledActivation.beginDisarm =
    State.handOver { s.armedPlain with
      renewal := { s.renewal.armed with disarm := true, activation := false }, arbiter := s.arbiter.withdrawn }
      (.append (.disarm s.renewal.sequence)) .disarm := by
  have withdrawn := scheduledActivation_withdrawn s.armedPlain
  obtain ⟨a, f, eq⟩ := scheduledActivation_eq s.armedPlain
  rw [eq] at withdrawn
  have held : s.arbiter.withdrawn = a.withdrawn := withdrawn.symm
  rw [eq, held]
  rfl

/-! ## The DISARM (R96) -/

theorem disarmed_of_canceller {p : Port} (cancel : s.canceller = some p) : s.disarmed = State.complete
    { s.dropNexts with renewal := { Renewal.idle with
        result := ⟨s.renewal.sequence, .cancelled, s.renewal.result.steps⟩, lastCommitted := s.renewal.lastCommitted } } p .ok [] := by
  obtain ⟨v, -, dropped⟩ := mapSlots_eq s fun _ c => { c with next := none }
  unfold State.disarmed State.dropNexts
  rw [dropped]
  dsimp only
  split
  next q found =>
    obtain rfl : p = q := Option.some.inj (cancel.symm.trans found)
    rfl
  next none => exact absurd (cancel.symm.trans none) nofun

end

/-- Settles O51: the records by `State.handArm` and `State.handSteps`, ARMED and the DISARM by `State.armed` and `State.disarmed`. -/
theorem armAndDisarmComplete : Obligations.ArmAndDisarmComplete := by
  intro s b rest busy copy place tick armRecord
  have tickEq : s.armTick = tick := by
    dsimp only [tick, State.armTick]
    cases s.renewal.header with
    | none => rfl
    | some h =>
      dsimp only [Option.bind_some]
      cases h.delay <;> rfl
  clear_value tick
  subst tickEq
  have stands := s.journal.appended_stands true b
  refine ⟨fun i k g key n queue next run room => ?_, fun last queue run room => ?_, fun queue none => ?_,
    fun p queue cancel run room => ?_, fun p queue cancel => ?_⟩
  · have taken : s.supply.run ≠ .fault ∧ s.supply.run ≠ .starting := by simp [run]
    obtain ⟨valid, keyed⟩ := s.journal.validImage_writeBank i k g key
    have written (t : State) (tried : ((s.imageStored i k g key rest).nextReady i n).tryImages = t) :=
      execWriteComplete_image busy place queue next tried
    have applied : ((s.imageStored i k g key rest).nextReady i n).appliedSteps = s.appliedSteps := nextReady_appliedSteps next
    have done := nextReady_imagesDone (s := s.imageStored i k g key rest) (i := i) (n := n)
    have slot := State.slot_setSlot (s := s.imageStored i k g key rest) i { s.slot i with next := some { n with ready := true } }
    have others (j : Fin 24) (other : j ≠ i) := State.slot_setSlot_ne (s.imageStored i k g key rest) (Ne.symm other)
      { s.slot i with next := some { n with ready := true } }
    by_cases imaged : s.renewal.checking = some .images ∧ ∀ j, j ≠ i → ∀ m ∈ (s.slot j).next, m.ready = true
    · obtain ⟨images, all⟩ := imaged
      by_cases steps : s.appliedSteps = []
      · have acts := tryImages_of_no_step (s := (s.imageStored i k g key rest).nextReady i n) images (done.mpr all) (applied.trans steps)
        rw [handArm_of_room (by exact taken) (by exact room)] at acts
        exact ⟨_, written _ acts rfl, slot, others, rfl, valid, keyed, rfl, rfl, rfl, fun no => absurd ⟨images, all⟩ no,
          fun _ _ => ⟨rfl, place, rfl⟩, fun _ some_ => absurd steps some_⟩
      · have acts := tryImages_of_steps (s := (s.imageStored i k g key rest).nextReady i n) images (done.mpr all) (by rwa [applied])
        rw [applied, handSteps_eq (by exact taken) (by exact Nat.le_of_lt room)] at acts
        refine ⟨_, written _ acts rfl, slot, others, rfl, valid, keyed, rfl, rfl, rfl, fun no => absurd ⟨images, all⟩ no,
          fun _ none => absurd none steps, fun _ _ => ⟨rfl, ?_, rfl⟩⟩
        exact congrArg (· ++ _) place
    · refine ⟨_, written _ (tryImages_of_open fun ⟨images, all⟩ => imaged ⟨images, done.mp all⟩) rfl, slot, others, rfl, valid, keyed, rfl, rfl, rfl, fun _ => ⟨rfl, rfl, place⟩,
        fun yes => absurd yes imaged, fun yes => absurd yes imaged⟩
  · cases last with
    | false => exact ⟨_, execWriteComplete_of_engine busy (by simp [State.copyDue, copy]) place queue rfl rfl, rfl, stands,
        fun _ => ⟨rfl, rfl⟩, nofun⟩
    | true =>
      have taken : s.supply.run ≠ .fault ∧ s.supply.run ≠ .starting := by rcases run with run | run <;> simp [run]
      have handed := handArm_of_room (s := s.recorded b true rest) taken room
      refine ⟨_, execWriteComplete_of_engine busy (by simp [State.copyDue, copy]) place queue handed rfl, rfl, stands, nofun, fun _ => ⟨rfl, rfl⟩⟩
  · have acts := armed_of_no_canceller (s := s.recorded b true rest) none
    have flag := armedPlain_activation (s.recorded b true rest)
    obtain ⟨a, f, eq⟩ := scheduledActivation_eq (s.recorded b true rest).armedPlain
    rw [eq] at acts flag
    refine ⟨_, execWriteComplete_of_engine busy (by simp [State.copyDue, copy]) place queue acts rfl, rfl, rfl, rfl, rfl, rfl, ?_, rfl, rfl, rfl,
      fun _ => rfl, rfl, rfl, rfl, rfl, rfl, rfl, rfl, rfl, stands⟩
    refine flag.trans ?_
    change s.renewal.activationTick.any _ = _
    cases s.renewal.activationTick <;> rfl
  · have taken : s.supply.run ≠ .fault ∧ s.supply.run ≠ .starting := by rcases run with run | run <;> simp [run]
    have acts := armed_of_canceller (s := s.recorded b true rest) cancel
    rw [armed_cancelled, handOver_eq_handed (by exact taken.1) (by exact taken.2), State.handed, if_pos (by exact room)] at acts
    exact ⟨_, execWriteComplete_of_engine busy (by simp [State.copyDue, copy]) place queue acts rfl, rfl, rfl, rfl, rfl, place, rfl,
      fun _ => rfl, rfl, rfl, rfl, rfl, rfl, rfl, rfl, stands⟩
  · have acts := disarmed_of_canceller (s := s.recorded b true rest) (p := p) cancel
    obtain ⟨v, slots, eq⟩ := mapSlots_eq (s.recorded b true rest) fun _ c => { c with next := none }
    rw [State.dropNexts, eq] at acts
    refine ⟨_, execWriteComplete_of_engine busy (by simp [State.copyDue, copy]) place queue acts (State.complete_engine ..), ?_⟩
    simp only [State.complete_renewal, State.complete_slot, State.complete_port, State.complete_queueM, State.complete_queueL,
      State.complete_journal, State.complete_engine, State.complete_commit, State.complete_time, State.complete_supply,
      State.complete_port_other, PortRecord.completed_request, PortRecord.completed_reply]
    exact ⟨rfl, rfl, rfl, rfl, rfl, rfl, slots, trivial, trivial, rfl, rfl, rfl, rfl, rfl, rfl, rfl, rfl, by cases p <;> rfl, stands⟩

end Sys2Proof.Machine
end

section
/-! PROOFS. The commit until its COMMIT_END (R110 to R114): what its records hand over, and what each step computes. -/

namespace Sys2Proof.Machine

/-! ## The records handed over (R114, R143) -/

section
variable {s : State}

/-- The journal controller takes writes: not in FAULT, and in STARTING not once the fault mark is set (R150, R170). -/
def State.TakesWrites (s : State) : Prop := s.supply.run ≠ .fault ∧ ¬ (s.supply.run = .starting ∧ s.supply.faultMark = true)

theorem takesWrites_of_run (taken : s.supply.run ≠ .fault ∧ s.supply.run ≠ .starting) : s.TakesWrites :=
  ⟨taken.1, fun marked => taken.2 marked.1⟩

theorem handing_of_takesWrites (takes : s.TakesWrites) : s.handing = if s.journal.queue.length < 8 then .queued else .placed := by
  unfold State.handing
  exact if_neg fun not => not.elim takes.1 takes.2

theorem handOver_of_takesWrites (takes : s.TakesWrites) (w : Write) (r : Requester) : s.handOver w r = s.handed w r := by
  unfold State.handOver State.handed
  rw [handing_of_takesWrites takes]
  by_cases room : s.journal.queue.length < 8
  · rw [if_pos room, if_pos room]
  · rw [if_neg room, if_neg room]

/-- A commit's records handed over where the controller takes them (R114, R143). -/
theorem handRecords_queued (taken : s.TakesWrites) (bound : s.journal.queue.length ≤ 8)
    (bodies : List Body) : State.handRecords bodies s =
      (s.queued (entriesOf .commitRecord bodies)).setRest (bodies.drop (8 - s.journal.queue.length + 1)) := by
  induction bodies generalizing s with
  | nil => simp [State.handRecords, State.queued, entriesOf]
  | cons b rest ih =>
    have handed := handOver_of_takesWrites taken (.append b) (.commitRecord rest.isEmpty)
    unfold State.handRecords
    by_cases room : s.journal.queue.length < 8
    · have handing : s.handing = .queued := (handing_of_takesWrites taken).trans (if_pos room)
      rw [State.handed, if_pos room] at handed
      have shorter : 7 - s.journal.queue.length + 1 = 8 - s.journal.queue.length := by omega
      have step := ih (s := { s with journal := { s.journal with
        queue := s.journal.queue ++ [⟨.append b, .commitRecord rest.isEmpty⟩] } }) taken (by simp; omega)
      rw [handing]
      dsimp only
      rw [handed, step, entriesOf, queued_cons_of_room room]
      simp [shorter]
    · have handing : s.handing = .placed := (handing_of_takesWrites taken).trans (if_neg room)
      rw [State.handed, if_neg room] at handed
      have full : 8 - s.journal.queue.length = 0 := by omega
      rw [handing]
      dsimp only
      rw [handed]
      simp [State.queued, entriesOf, full]

theorem handEnd_eq (s : State) : ∃ c q p, s.handEnd = { s with commit := c, journal := { s.journal with queue := q, place := p } } := by
  obtain ⟨q, p, eq⟩ := handOver_eq { s with commit := s.commit.map fun c => { c with stage := .ending, rest := [] } }
    (.append (.commitEnd s.renewal.sequence)) .commitEnd
  exact ⟨_, q, p, eq⟩

theorem handEnd_of_room (taken : s.TakesWrites) (room : s.journal.queue.length < 8) :
    s.handEnd = { s with
      commit := s.commit.map fun c => { c with stage := .ending, rest := [] }
      journal := { s.journal with queue := s.journal.queue ++ [⟨.append (.commitEnd s.renewal.sequence), .commitEnd⟩] } } := by
  rw [State.handEnd, handOver_of_takesWrites (by exact taken), State.handed, if_pos (by exact room)]

/-- The computation reads the slots and the tick period code alone (R111). -/
theorem compute_congr {s u : State} (slots : u.slots = s.slots) (time : u.time = s.time) (tc q : Nat) (steps : List AppliedStep) :
    u.compute tc q steps = s.compute tc q steps := by
  have one (a : AppliedStep) : u.computeStep tc q a = s.computeStep tc q a := by
    unfold State.computeStep State.slot
    rw [slots, time]
  induction steps with
  | nil => rfl
  | cons a rest ih =>
    unfold State.compute
    rw [one, ih]

section
variable {c : Commit} {x : List NewSlot × Option (LifeCycle × Option Nat) × List Body}

/-- The compute stage hands its records over with the new contents computed (R111, R114). -/
theorem computeCommit_of_records (commit : s.commit = some c) (computed : s.compute c.tc s.renewal.sequence s.renewal.applied = x)
    (some_ : x.2.2 ≠ []) :
    s.computeCommit = State.handRecords x.2.2 { s with commit := some { c with slots := x.1, lifecycle := x.2.1 } } := by
  rw [State.computeCommit, commit]
  dsimp only
  rw [computed, if_neg (by simpa using some_)]

/-- A batch with no applied step hands no record over (R114). -/
theorem computeCommit_of_no_record (commit : s.commit = some c)
    (computed : s.compute c.tc s.renewal.sequence s.renewal.applied = x) (none : x.2.2 = []) :
    s.computeCommit = State.handEnd { s with commit := some { c with slots := x.1, lifecycle := x.2.1 } } := by
  rw [State.computeCommit, commit]
  dsimp only
  rw [computed, if_pos (by rw [none]; rfl)]

end

theorem computeCommit_eq (s : State) :
    ∃ c q p, s.computeCommit = { s with commit := c, journal := { s.journal with queue := q, place := p } } := by
  unfold State.computeCommit
  split
  · dsimp only
    split
    · exact handEnd_eq _
    · exact handRecords_eq _ _
  · exact ⟨s.commit, s.journal.queue, s.journal.place, rfl⟩

/-- What a requester of the commit does before COMMIT_END changes the commit, the queue and the place list alone (R110, R114). -/
theorem requesterActs_commit_eq {w : Write} {r : Requester} (of : r = .commitBegin ∨ ∃ last, r = .commitRecord last) :
    ∃ c q p, s.requesterActs ⟨w, r⟩ = { s with commit := c, journal := { s.journal with queue := q, place := p } } := by
  rcases of with rfl | ⟨last, rfl⟩
  · exact computeCommit_eq s
  · cases last with
    | true => exact handEnd_eq s
    | false => exact ⟨s.commit, s.journal.queue, s.journal.place, rfl⟩

/-- With the engine occupied or the hold granted, the end of an event changes the run state alone (R64, R164). -/
theorem settle_of_held (held : s.engine.isSome = true ∨ s.arbiter.hold = .granted) :
    ∃ r, s.settle = { s with supply := { s.supply with run := r } } := by
  have stays : s.grant = none := held.elim grant_none_of_engine grant_none_of_hold
  rw [State.settle, grants_of_grant_none _ stays, State.drain]
  split
  · exact ⟨_, rfl⟩
  · exact ⟨s.supply.run, rfl⟩

end

/-! ## The completion of COMMIT_BEGIN and of a record (R111, R114) -/

section
variable {s : State} {b : Body} {r : Requester} {rest : List Entry}

theorem storeEffect_commit (of : r = .commitBegin ∨ ∃ last, r = .commitRecord last) :
    s.storeEffect ⟨.append b, r⟩ = s.journal.appended b true := by
  rcases of with rfl | ⟨last, rfl⟩ <;> rfl

/-- Until COMMIT_END a record of the commit that completes changes the commit and the journal alone (R110, R114). -/
theorem completeEntry_commit_eq (of : r = .commitBegin ∨ ∃ last, r = .commitRecord last)
    (other : ∀ e ∈ s.journal.place, e.requester.ofBatch = false) :
    ∃ c q p, s.completeEntry ⟨.append b, r⟩ rest = { s with
      commit := c, journal := { s.journal.appended b true with queue := q, place := p, failures := 0 } } := by
  unfold State.completeEntry
  rw [storeEffect_commit of]
  obtain ⟨c, q, p, acts⟩ := requesterActs_commit_eq (w := .append b) of
    (s := { s with journal := Journal.refilled { s.journal.appended b true with queue := rest, failures := 0 } })
  dsimp only
  rw [acts]
  split
  next x head =>
    obtain ⟨c', q', p', eq⟩ := placedActs_eq _ (other x (List.mem_of_mem_head? head))
    exact ⟨c', q', p', eq⟩
  next => exact ⟨c, q, p, rfl⟩

theorem completeEntry_of_place_nil {e : Entry} (place : s.journal.place = []) : s.completeEntry e rest =
    State.requesterActs { s with journal := { s.storeEffect e with queue := rest, failures := 0 } } e := by
  rw [State.completeEntry, place, List.head?_nil,
    refilled_of_place_nil (j := { s.storeEffect e with queue := rest, failures := 0 }) ((storeEffect_place s e).trans place)]

theorem recorded_compute (s : State) (b : Body) (keep : Bool) (rest : List Entry) (tc q : Nat) (steps : List AppliedStep) :
    (s.recorded b keep rest).compute tc q steps = s.compute tc q steps :=
  compute_congr (s := s) (u := s.recorded b keep rest) rfl rfl tc q steps

theorem refilled_of_refill {j : Journal} {queue place : List Entry} (filled : refill j.queue j.place = (queue, place)) :
    j.refilled = { j with queue := queue, place := place } := by
  rw [Journal.refilled, filled]

/-- The completion of COMMIT_BEGIN hands over the records computed, the first of them in the queue (R111, R114). -/
theorem completeEntry_begin {c : Commit} (place : s.journal.place = []) (commit : s.commit = some c)
    (taken : s.supply.run ≠ .fault ∧ s.supply.run ≠ .starting) (room : rest.length < 8)
    (some_ : (s.compute c.tc s.renewal.sequence s.renewal.applied).2.2 ≠ []) :
    let x := s.compute c.tc s.renewal.sequence s.renewal.applied
    s.completeEntry ⟨.append b, .commitBegin⟩ rest =
      (State.queued { s.recorded b true rest with commit := some { c with slots := x.1, lifecycle := x.2.1 } }
        (entriesOf .commitRecord x.2.2)).setRest (x.2.2.drop (8 - rest.length + 1)) := by
  intro x
  have acts := computeCommit_of_records (s := s.recorded b true rest) commit (recorded_compute ..) some_
  rw [handRecords_queued (by exact takesWrites_of_run taken) (by exact Nat.le_of_lt room)] at acts
  exact (completeEntry_of_place_nil place).trans acts

theorem completeEntry_begin_of_none {c : Commit} (place : s.journal.place = []) (commit : s.commit = some c)
    (none : (s.compute c.tc s.renewal.sequence s.renewal.applied).2.2 = []) :
    let x := s.compute c.tc s.renewal.sequence s.renewal.applied
    s.completeEntry ⟨.append b, .commitBegin⟩ rest =
      State.handEnd { s.recorded b true rest with commit := some { c with slots := x.1, lifecycle := x.2.1 } } := by
  intro x
  exact (completeEntry_of_place_nil place).trans
    (computeCommit_of_no_record (s := s.recorded b true rest) commit (recorded_compute ..) none)

/-- A record that entered the queue hands the next one over, which waits for a place (R114, R143). -/
theorem completeEntry_record_placed {c : Commit} {e : Entry} {y : Body} {more : List Body} {last : Bool} (room : rest.length = 7)
    (place : s.journal.place = [e]) (entered : e.requester = .commitRecord last) (commit : s.commit = some c)
    (stage : c.stage = .records) (left : c.rest = y :: more) (taken : s.supply.run ≠ .fault ∧ s.supply.run ≠ .starting) :
    s.completeEntry ⟨.append b, .commitRecord false⟩ rest = { s with
      commit := some { c with rest := more }
      journal := { s.journal.appended b true with
        queue := rest ++ [e], place := [⟨.append y, .commitRecord more.isEmpty⟩], failures := 0 } } := by
  have filled : Journal.refilled { s.journal.appended b true with queue := rest, failures := 0 } =
      { s.journal.appended b true with queue := rest ++ [e], place := [], failures := 0 } :=
    refilled_of_refill (j := { s.journal.appended b true with queue := rest, failures := 0 })
      ((congrArg (refill rest) place).trans (by simp [refill, room]))
  obtain ⟨w, r⟩ := e
  obtain rfl : r = .commitRecord last := entered
  have handed := handRecords_queued (s := { s with
    journal := { s.journal.appended b true with queue := rest ++ [⟨w, .commitRecord last⟩], place := [], failures := 0 } }) (takesWrites_of_run taken)
    (by simp [room]) (y :: more)
  have placed : State.commitPlaced { s with
      journal := { s.journal.appended b true with queue := rest ++ [⟨w, .commitRecord last⟩], place := [], failures := 0 } } =
      State.handRecords (y :: more) { s with
        journal := { s.journal.appended b true with queue := rest ++ [⟨w, .commitRecord last⟩], place := [], failures := 0 } } := by
    rw [State.commitPlaced]
    dsimp only
    rw [commit]
    dsimp only
    rw [if_pos stage, left]
  rw [State.completeEntry, place]
  dsimp only [List.head?_cons]
  rw [storeEffect_commit (.inr ⟨_, rfl⟩), filled]
  refine placed.trans (handed.trans ?_)
  simp [State.queued, State.setRest, entriesOf, room, commit, stage]

end

/-! ## What each step computes (R34, R35, R45, R111 to R113) -/

section
variable (i : Fin 24) (stride q : Nat)

/-- A PRIOR, or none, as the window of a stride leaves it, with its FLOOR record (R45). -/
theorem windowedOpt_prior (before : Option Prior) :
    let after := windowedOpt (fun k : Prior => k.windowed i stride q) before
    (before = none → after.1 = none ∧ after.2 = []) ∧ ∀ k, before = some k →
      (k.f < k.persisted + stride → after.1 = some k ∧ after.2 = []) ∧
      (k.persisted + stride ≤ k.f →
        after.1 = some { k with persisted := k.f } ∧ after.2 = [.floor i k.generation k.f (some q)]) := by
  refine ⟨fun none => by rw [none]; exact ⟨rfl, rfl⟩, fun k some_ => ⟨fun within => ?_, fun beyond => ?_⟩⟩
  · rw [some_, windowedOpt, Prior.windowed, if_neg (Nat.not_le.mpr within)]
    exact ⟨rfl, rfl⟩
  · rw [some_, windowedOpt, Prior.windowed, if_pos beyond]
    exact ⟨rfl, rfl⟩

/-- A CURRENT, or none, as the window of a stride leaves it, with its FLOOR record (R44, R45). -/
theorem windowedOpt_current (before : Option Current) :
    let after := windowedOpt (fun k : Current => k.windowed i stride q) before
    (before = none → after.1 = none ∧ after.2 = []) ∧ ∀ k, before = some k →
      (∀ a b l, k.counters = .issue a b l → after.1 = some k ∧ after.2 = []) ∧
      ∀ f p, k.counters = .floor f p →
        (f < p + stride → after.1 = some k ∧ after.2 = []) ∧
        (p + stride ≤ f → after.1 = some { k with counters := .floor f f } ∧ after.2 = [.floor i k.generation f (some q)]) := by
  refine ⟨fun none => by rw [none]; exact ⟨rfl, rfl⟩, fun k some_ => ⟨fun a b l issue => ?_, fun f p floor => ⟨fun within => ?_, fun beyond => ?_⟩⟩⟩
  · rw [some_, windowedOpt, Current.windowed, issue]
    exact ⟨rfl, rfl⟩
  · rw [some_, windowedOpt, Current.windowed, floor]
    dsimp only
    rw [if_neg (Nat.not_le.mpr within)]
    exact ⟨rfl, rfl⟩
  · rw [some_, windowedOpt, Current.windowed, floor]
    dsimp only
    rw [if_pos beyond]
    exact ⟨rfl, rfl⟩

end

section
variable {old : Slot} {i : Fin 24} {g tc q : Nat} {life budget : Option Nat} {define : Option DefinePart} {given : Option Policy} {bank : Fin 3}

/-- The role an INSTALL gives its slot (R111). -/
def roleOf (old : Slot) (define : Option DefinePart) : Role := (define.map DefinePart.role).getD old.role

/-- The policy an INSTALL leaves its slot (R7, R111). -/
def policyOf (old : Slot) (define : Option DefinePart) (given : Option Policy) : Option Policy :=
  (given.map fun y => y.storedFor (roleOf old define)).or old.policy

/-- The record of a new CURRENT's starting numbers (R34, R35, R114). -/
def Counters.record (i : Fin 24) (g q : Nat) : Counters → Body
  | .issue _ ceiling _ => .ceiling i g ceiling (some q)
  | .floor f _ => .floor i g f (some q)

/-- The ceiling of a CURRENT with issue counters; 0 without one (R34). -/
def ceilingOf : Option Current → Nat
  | some k => match k.counters with | .issue _ c _ => c | .floor .. => 0
  | none => 0

/-- The cell limit of a new CURRENT that starts at `n0` (R34, R36). -/
def limitOf (n0 : Nat) : Option Nat → Nat
  | some b => min LIMIT (n0 + b)
  | none => LIMIT

theorem issueStart_eq (carry : Bool) (current : Option Current) (stride : Nat) (budget : Option Nat) :
    issueStart carry current stride budget = .issue (if carry then ceilingOf current else 0)
      (min ((if carry then ceilingOf current else 0) + stride) (limitOf (if carry then ceilingOf current else 0) budget))
      (limitOf (if carry then ceilingOf current else 0) budget) := rfl

/-- What an INSTALL makes of its slot, and its records, under the policy, the starting numbers and the PRIOR it leaves (R111, R112). -/
theorem installSlot_eq {y : Policy} {role : Role} {counters : Counters} {left : Option Prior} (policy : policyOf old define given = some y)
    (named : roleOf old define = role)
    (start : (if role = .issue then issueStart (decide (y.continuation = .carryOn)) old.current y.stride budget
      else floorStart (decide (y.continuation = .carryOn)) old.current) = counters)
    (leaves : installPrior role y.grace old tc = left) :
    installSlot old i g life budget define given bank tc q =
      let prior := windowedOpt (fun k : Prior => k.windowed i y.stride q) left
      let c : NewSlot := ⟨i, role, (define.map DefinePart.userMap).getD old.userMap, (define.map DefinePart.notifyMap).getD old.notifyMap,
        some y, some ⟨g, if counters.atLimit then .spent else .live, tc, life, counters, bank, false, false⟩, prior.1, true⟩
      (c, c.body q :: counters.record i g q :: prior.2) := by
  subst named start leaves
  cases given with
  | some w =>
    obtain rfl : w.storedFor (roleOf old define) = y := Option.some.inj policy
    cases define <;> rfl
  | none =>
    have policy : old.policy = some y := policy
    unfold installSlot
    dsimp only
    rw [policy]
    cases define <;> rfl

end

/-- Settles O53. -/
theorem commitRecordsShowNothing : Obligations.CommitRecordsShowNothing := by
  refine ⟨fun s b r rest queue copy of other held => ?_, fun s tc q => ⟨rfl, fun a more => ?_, fun n target code => rfl, fun n i => ?_⟩⟩
  · have event := execWriteComplete_eq (e := ⟨.append b, r⟩) queue (by simp [State.copyDue, copy])
    obtain ⟨c, q, p, eq⟩ := completeEntry_commit_eq (s := s) (b := b) (rest := rest) of other
    obtain ⟨after, settled⟩ := settle_of_held (s := s.completeEntry ⟨.append b, r⟩ rest) (by rw [eq]; exact held)
    have stands := s.journal.appended_stands true b
    rw [settled] at event
    refine ⟨_, event, by rw [eq]; exact fun _ => rfl, by rw [eq], by rw [eq], by rw [eq], by rw [eq], by rw [eq], by rw [eq], by rw [eq], by rw [eq],
      by rw [eq]; rfl, by rw [eq]; exact stands, fun c commit room run => ?_⟩
    have taken : s.supply.run ≠ .fault ∧ s.supply.run ≠ .starting := by rcases run with run | run <;> simp [run]
    intro x entries space ends
    refine ⟨fun begin place some_ => ?_, fun begin place none => ?_, fun last place => ?_, fun record place => ?_,
      fun e y more last record seven place entered stage left => ?_⟩
    · subst begin
      rw [completeEntry_begin place commit taken room some_]
      exact ⟨rfl, rfl, congrArg (· ++ _) place⟩
    · subst begin
      rw [completeEntry_begin_of_none place commit none, handEnd_of_room (by exact takesWrites_of_run taken) (by exact room)]
      exact ⟨rfl, rfl⟩
    · subst last
      have acts := handEnd_of_room (s := s.recorded b true rest) (takesWrites_of_run taken) room
      have ended : s.completeEntry ⟨.append b, .commitRecord true⟩ rest = _ := (completeEntry_of_place_nil place).trans acts
      rw [ended]
      exact ⟨congrArg (Option.map _) commit, rfl⟩
    · subst record
      rw [completeEntry_of_place_nil place]
      exact ⟨commit, rfl⟩
    · subst record
      rw [completeEntry_record_placed seven place entered commit stage left taken]
      exact ⟨rfl, rfl, rfl⟩
  · rw [State.compute]
    generalize s.computeStep tc q a = x
    generalize s.compute tc q more = y
    obtain ⟨slots, lifecycle, records⟩ := x
    cases lifecycle <;> rfl
  · refine ⟨rfl, rfl, fun y user notify => ⟨_, _, _, _, windowedOpt_current i y.stride q _, windowedOpt_prior i y.stride q _, rfl⟩, ?_⟩
    intro g life budget define given bank y part role user notify carry policy
    have roleEq : roleOf (s.slot i) define = role := by cases define <;> rfl
    have userEq : (define.map DefinePart.userMap).getD (s.slot i).userMap = user := by cases define <;> rfl
    have notifyEq : (define.map DefinePart.notifyMap).getD (s.slot i).notifyMap = notify := by cases define <;> rfl
    have policyEq : policyOf (s.slot i) define given = some y := by
      cases given with
      | none => exact policy
      | some w => rw [policyOf, roleEq]; exact policy
    have made {counters : Counters} {left : Option Prior} := installSlot_eq (i := i) (g := g) (tc := tc) (q := q) (life := life)
      (budget := budget) (bank := bank) (counters := counters) (left := left) policyEq roleEq
    rw [userEq, notifyEq] at made
    refine ⟨fun issue => ?_, fun other => ?_⟩
    · intro n0 limit ceiling
      have start : issueStart (decide carry) (s.slot i).current y.stride budget = .issue n0 ceiling limit := by
        have first : (if decide carry = true then ceilingOf (s.slot i).current else 0) = n0 := by
          dsimp only [n0]
          cases (s.slot i).current with
          | none => exact ite_self 0
          | some k =>
            dsimp only [ceilingOf]
            cases k.counters with
            | issue => simp only [decide_eq_true_eq]
            | floor => exact ite_self 0
        rw [issueStart_eq, first]
        rfl
      have leaves : installPrior role y.grace (s.slot i) tc = none := by simp [installPrior, issue]
      have part := made ((if_pos issue).trans start) leaves
      simp only [Counters.atLimit, decide_eq_true_eq] at part
      exact congrArg (fun x : NewSlot × List Body => ([x.1], none, x.2)) part
    · intro f0 left
      have start : floorStart (decide carry) (s.slot i).current = .floor f0 f0 := by
        dsimp only [f0, floorStart]
        cases (s.slot i).current with
        | none => simp only [ite_self]
        | some k => simp only [decide_eq_true_eq]
      have leaves : installPrior role y.grace (s.slot i) tc = left := by
        dsimp only [left, installPrior]
        by_cases accept : role = .accept
        · exact (if_neg (Classical.not_not.mpr accept)).trans (if_pos accept).symm
        · exact (if_pos accept).trans (if_neg accept).symm
      have part := made ((if_neg other).trans start) leaves
      simp only [Counters.atLimit, decide_eq_true_eq] at part
      exact ⟨_, _, windowedOpt_prior i y.stride q left, congrArg (fun x : NewSlot × List Body => ([x.1], none, x.2)) part⟩

end Sys2Proof.Machine
end

section
/-! PROOFS. The conditions of the key table that start-up and the end of a commit evaluate (R115, R116, R186): what a slot becomes and what
its cell raises, for one slot and over a list of slots. -/

namespace Sys2Proof.Machine

/-! ## The conditions of one slot -/

/-- A slot's CURRENT cell evaluated, with SPENT raised of a SPENT cell where `spent` says so, and its PRIOR at its grace end gone. -/
def State.cellEvaluated (s : State) (i : Fin 24) (spent : Bool) : State :=
  let t := s.evaluateLow i
  let t := (t.slot i).current.elim t fun k => if spent && decide (k.state = .spent) then t.raiseSlot .spent i k.generation else t
  ((t.lifeWarning i).expire i).endGrace i

/-- A slot once its conditions have been evaluated at `t` (R116, R186). -/
def Slot.evaluated (c : Slot) (t : Nat) : Slot :=
  { c with current := c.current.map fun k => k.evaluated c.policy t, prior := c.prior.filter fun k => decide (t < k.graceEnd) }

/-- What the evaluation of a slot raises at a port's queue (R116, R186). -/
def Slot.conditionsFor (c : Slot) (i : Fin 24) (t : Nat) (spent : Bool) (x : Port) : List Demand :=
  c.current.elim [] fun k => if c.notifyMap.has x then k.demands i c.policy t (spent && decide (k.state = .spent)) else []

section
variable (s : State) (i : Fin 24)

/-- At stage 6 of start-up SPENT is raised of every SPENT cell (R186). -/
theorem slotConditions_eq : s.slotConditions i = s.cellEvaluated i true := by
  unfold State.slotConditions State.cellEvaluated
  cases current : ((s.evaluateLow i).slot i).current with
  | none => simp [current]
  | some k => simp [current]

/-- At the end of a commit SPENT is raised of the cells that it installed at their limit (R34, R35, R116). -/
theorem endSlot_eq (c : NewSlot) : s.endSlot c = s.cellEvaluated c.slot c.installed := by
  unfold State.endSlot State.raiseInstalledSpent State.cellEvaluated
  cases c.installed with
  | false => cases current : ((s.evaluateLow c.slot).slot c.slot).current <;> simp [current]
  | true => cases current : ((s.evaluateLow c.slot).slot c.slot).current <;> simp [current]

theorem cellEvaluated_of_none (spent : Bool) (none : (s.slot i).current = none) : s.cellEvaluated i spent = s.endGrace i := by
  have low : s.evaluateLow i = s := by rw [State.evaluateLow, none]
  simp [State.cellEvaluated, low, none, State.lifeWarning, State.expire]

theorem cellEvaluated_sameBesides (spent : Bool) : s.SameBesides i (s.cellEvaluated i spent) := by
  have raised (t : State) : t.SameBesides i
      ((t.slot i).current.elim t fun k => if spent && decide (k.state = .spent) then t.raiseSlot .spent i k.generation else t) := by
    cases (t.slot i).current with
    | none => exact .refl t i
    | some k =>
      dsimp only [Option.elim_some]
      split
      · exact .raise t i _ _
      · exact .refl t i
  exact ((s.evaluateLow_sameBesides i).trans (raised _)).trans (cellDeadlines_sameBesides _ i)

/-- COUNTER_LOW, SPENT, LIFE_LOW and EXPIRED arrive at a queue in that order (R116, R186). -/
theorem foldl_arrive_conditions (g t : Nat) (low spent life expired : Bool) (q : List Demand) :
    (conditionDemands i g t low spent life expired).foldl arrive q =
      (conditionDemands i g t false false life expired).foldl arrive
        (let warned := if low then arrive q ⟨.counterLow, some i, some g, none, t⟩ else q
         if spent then arrive warned ⟨.spent, some i, some g, none, t⟩ else warned) := by
  cases low <;> cases spent <;> cases life <;> cases expired <;> rfl

/-- COUNTER_LOW and SPENT of a slot with a CURRENT cell (R30, R31, R186). -/
def State.countersEvaluated (s : State) (i : Fin 24) (k : Current) (spent : Bool) : State :=
  if spent && decide (k.state = .spent) then (s.evaluateLow i).raiseSlot .spent i k.generation else s.evaluateLow i

variable {s i} {k : Current}

theorem cellEvaluated_of_current (current : (s.slot i).current = some k) (spent : Bool) :
    s.cellEvaluated i spent = (((s.countersEvaluated i k spent).lifeWarning i).expire i).endGrace i := by
  have low := congrArg Slot.current (State.evaluateLow_slot current)
  unfold State.cellEvaluated
  dsimp only at low ⊢
  rw [low]
  rfl

theorem countersEvaluated_slot (current : (s.slot i).current = some k) (spent : Bool) :
    (s.countersEvaluated i k spent).slot i =
      { s.slot i with current := some { k with warned := k.warned || counterLowDue (s.slot i).policy k } } := by
  rw [← State.evaluateLow_slot current, State.countersEvaluated]
  split
  · exact State.raiseSlot_slot ..
  · rfl

theorem evaluateLow_frame (s : State) (i : Fin 24) :
    (s.evaluateLow i).time = s.time ∧ ∀ c, (s.slot i).current = some c → ((s.evaluateLow i).slot i).notifyMap = (s.slot i).notifyMap :=
  ⟨(s.evaluateLow_sameBesides i).time_eq, fun _ current => by rw [State.evaluateLow_slot current]⟩

theorem countersEvaluated_time (k : Current) (spent : Bool) : (s.countersEvaluated i k spent).time = s.time := by
  rw [State.countersEvaluated]
  split
  · rw [State.raiseSlot_time, (evaluateLow_frame s i).1]
  · exact (evaluateLow_frame s i).1

theorem countersEvaluated_queue (current : (s.slot i).current = some k) (spent : Bool) (x : Port) :
    (s.countersEvaluated i k spent).queue x = if (s.slot i).notifyMap.has x then
      (conditionDemands i k.generation s.time.t (counterLowDue (s.slot i).policy k) (spent && decide (k.state = .spent)) false
        false).foldl arrive (s.queue x) else s.queue x := by
  obtain ⟨time, notify⟩ := evaluateLow_frame s i
  rw [foldl_arrive_conditionDemands, State.countersEvaluated]
  split
  next =>
    rw [State.raiseSlot_queue, notify k current, State.evaluateLow_queue current, time]
    cases (s.slot i).notifyMap.has x <;> simp
  next =>
    rw [State.evaluateLow_queue current]
    cases (s.slot i).notifyMap.has x <;> simp

theorem cellEvaluated_slot (s : State) (i : Fin 24) (spent : Bool) : (s.cellEvaluated i spent).slot i = (s.slot i).evaluated s.time.t := by
  cases current : (s.slot i).current with
  | none =>
    rw [cellEvaluated_of_none s i spent current, endGrace_slot, Slot.evaluated, current, Option.map_none, ← current]
  | some k =>
    rw [cellEvaluated_of_current current, cellDeadlines_slot, countersEvaluated_slot current, countersEvaluated_time]
    simp only [Slot.evaluated, Slot.met, current, Option.map_some]
    rfl

theorem cellEvaluated_queue (s : State) (i : Fin 24) (spent : Bool) (x : Port) :
    (s.cellEvaluated i spent).queue x = ((s.slot i).conditionsFor i s.time.t spent x).foldl arrive (s.queue x) := by
  cases current : (s.slot i).current with
  | none =>
    rw [cellEvaluated_of_none s i spent current, endGrace_queue, Slot.conditionsFor, current]
    rfl
  | some k =>
    rw [cellEvaluated_of_current current, cellDeadlines_queue, countersEvaluated_slot current, countersEvaluated_time,
      countersEvaluated_queue current]
    simp only [Slot.conditionsFor, Slot.lifeDemands, current, Option.elim_some]
    cases (s.slot i).notifyMap.has x with
    | false => rfl
    | true => exact ((foldl_arrive_conditions i k.generation s.time.t _ _ _ _ _).trans (by rw [foldl_arrive_conditionDemands]; rfl)).symm

end

/-! ## The conditions of a list of slots -/

/-- What the evaluation of the slots `l`, each with its SPENT, leaves of `s` (R116, R186). -/
structure State.CellsEvaluated (s : State) (l : List (Fin 24 × Bool)) (u : State) : Prop where
  same : ∃ v m n, u = { s with slots := v, queueM := m, queueL := n }
  slot : ∀ j, u.slot j = if j ∈ l.map Prod.fst then (s.slot j).evaluated s.time.t else s.slot j
  queue : ∀ x, u.queue x = (l.flatMap fun e => (s.slot e.1).conditionsFor e.1 s.time.t e.2 x).foldl arrive (s.queue x)

theorem State.CellsEvaluated.foldl (s : State) (l : List (Fin 24 × Bool)) (nodup : (l.map Prod.fst).Nodup) :
    s.CellsEvaluated l (l.foldl (fun t e => t.cellEvaluated e.1 e.2) s) := by
  induction l using list_induction_from_end with
  | nil => exact ⟨⟨s.slots, s.queueM, s.queueL, rfl⟩, fun _ => rfl, fun _ => rfl⟩
  | append_singleton l e ih =>
    rw [List.map_append] at nodup
    obtain ⟨nodup, -, new⟩ := List.nodup_append.mp nodup
    have new : e.1 ∉ l.map Prod.fst := fun old => new e.1 old e.1 (by simp) rfl
    obtain ⟨⟨v, m, n, same⟩, slot, queue⟩ := ih nodup
    rw [List.foldl_append, List.foldl_cons, List.foldl_nil]
    generalize l.foldl (fun t e => t.cellEvaluated e.1 e.2) s = t at *
    have here : t.slot e.1 = s.slot e.1 := (slot e.1).trans (if_neg new)
    have time : t.time = s.time := by rw [same]
    have besides := cellEvaluated_sameBesides t e.1 e.2
    refine ⟨?_, fun j => ?_, fun x => ?_⟩
    · obtain ⟨c, m', n', eq⟩ := besides
      rw [eq, same]
      exact ⟨_, m', n', rfl⟩
    · by_cases this : j = e.1
      · subst this
        rw [cellEvaluated_slot, here, time]
        simp
      · rw [besides.slot_ne this, slot]
        simp [this]
    · rw [cellEvaluated_queue, here, time, queue, List.flatMap_append, List.foldl_append]
      simp

/-! ## Stages 6 and 7 of start-up (R171, R186, R189) -/

/-- The demands of stage 6 at a port's queue, in their order (R186). -/
def State.startupDemands (s : State) (x : Port) : List Demand :=
  ⟨.restarted, none, none, none, s.time.t⟩ ::
    (if s.supply.lifeCycle = .retired then [] else
      ((List.finRange 24).flatMap fun i => (s.slot i).conditionsFor i s.time.t true x) ++
        if s.renewal.state = .armed then [⟨.batchArmed, none, none, some s.renewal.sequence, s.time.t⟩] else [])

/-- The activation flag at stage 6: outside RETIRED that of an armed batch is set where its tick is reached (R157, R186). -/
def State.startupFlag (s : State) : Bool :=
  if s.supply.lifeCycle ≠ .retired ∧ s.renewal.state = .armed then s.renewal.activationTick.any fun a => decide (a ≤ s.time.t)
  else s.renewal.activation

/-- What stage 6 of start-up leaves of `s` (R169, R186). -/
structure State.ConditionsMet (s u : State) : Prop where
  same : ∃ v m n, u = { s with slots := v, queueM := m, queueL := n, renewal := { s.renewal with activation := s.startupFlag } }
  slot : ∀ j, u.slot j = if s.supply.lifeCycle = .retired then s.slot j else (s.slot j).evaluated s.time.t
  queue : ∀ x, u.queue x = (s.startupDemands x).foldl arrive (s.queue x)

section
variable {s : State}

theorem conditions_of_retired (retired : s.supply.lifeCycle = .retired) :
    s.conditions = s.raise .both ⟨.restarted, none, none, none, s.time.t⟩ := by
  unfold State.conditions
  exact if_pos (by simpa using retired)

theorem State.raise_both (s : State) (d : Demand) :
    s.raise .both d = { s with queueM := arrive s.queueM d, queueL := arrive s.queueL d } := rfl

/-- The slots' conditions of stage 6, after RESTARTED (R186). -/
def State.slotsConditioned (s : State) : State :=
  (List.finRange 24).foldl State.slotConditions (s.raise .both ⟨.restarted, none, none, none, s.time.t⟩)

theorem slotsConditioned_evaluated (s : State) :
    (s.raise .both ⟨.restarted, none, none, none, s.time.t⟩).CellsEvaluated ((List.finRange 24).map fun i => (i, true)) s.slotsConditioned := by
  have fold : s.slotsConditioned = ((List.finRange 24).map fun i => (i, true)).foldl (fun t e => t.cellEvaluated e.1 e.2)
      (s.raise .both ⟨.restarted, none, none, none, s.time.t⟩) := by
    rw [List.foldl_map, State.slotsConditioned]
    congr 1
    exact funext fun t => funext fun i => slotConditions_eq t i
  have indices : ((List.finRange 24).map fun i => (i, true)).map Prod.fst = List.finRange 24 := by
    rw [List.map_map]
    exact List.map_id _
  rw [fold]
  exact .foldl _ _ (indices ▸ List.nodup_finRange 24)

/-- The flag and BATCH_ARMED of a restored armed batch at stage 6 (R157, R186). -/
def State.batchConditioned (s : State) : State :=
  if s.renewal.state = .armed then
    State.raiseBatch { s with renewal := { s.renewal with
      activation := s.renewal.activationTick.any fun a => decide (a ≤ s.now) } } .batchArmed s.renewal.sequence
  else s

theorem conditions_of_not_retired (life : s.supply.lifeCycle ≠ .retired) : s.conditions = s.slotsConditioned.batchConditioned := by
  unfold State.conditions State.slotsConditioned
  generalize List.finRange 24 = l
  exact if_neg (by simpa using life)

theorem slotsConditioned_slot (s : State) (j : Fin 24) : s.slotsConditioned.slot j = (s.slot j).evaluated s.time.t := by
  rw [(slotsConditioned_evaluated s).slot, if_pos (by simp), State.raise_slot, State.raise_both]

theorem slotsConditioned_queue (s : State) (x : Port) : s.slotsConditioned.queue x =
    (⟨.restarted, none, none, none, s.time.t⟩ :: (List.finRange 24).flatMap fun i => (s.slot i).conditionsFor i s.time.t true x).foldl
      arrive (s.queue x) := by
  have restarted : (s.raise .both ⟨.restarted, none, none, none, s.time.t⟩).queue x =
      arrive (s.queue x) ⟨.restarted, none, none, none, s.time.t⟩ := by cases x <;> rfl
  rw [(slotsConditioned_evaluated s).queue, restarted, List.flatMap_map, State.raise_both, List.foldl_cons]
  rfl

theorem conditions_met (s : State) : s.ConditionsMet s.conditions := by
  obtain ⟨⟨v, m, n, same⟩, -, -⟩ := slotsConditioned_evaluated s
  by_cases retired : s.supply.lifeCycle = .retired
  · rw [conditions_of_retired retired]
    have flag : s.startupFlag = s.renewal.activation := if_neg fun ⟨life, _⟩ => life retired
    rw [State.raise_both]
    refine ⟨⟨s.slots, _, _, by rw [flag]⟩, fun j => ?_, fun x => ?_⟩
    · rw [if_pos retired]
      rfl
    · rw [State.startupDemands, if_pos retired]
      cases x <;> rfl
  · have slot := slotsConditioned_slot s
    have queue := slotsConditioned_queue s
    rw [conditions_of_not_retired retired]
    generalize s.slotsConditioned = w at *
    by_cases armed : s.renewal.state = .armed
    · have flag : s.startupFlag = s.renewal.activationTick.any fun a => decide (a ≤ s.time.t) := if_pos ⟨retired, armed⟩
      have raised : w.batchConditioned = State.raise { w with
          renewal := { s.renewal with activation := s.startupFlag } } .both ⟨.batchArmed, none, none, some s.renewal.sequence, s.time.t⟩ := by
        rw [State.batchConditioned, if_pos (by rw [same]; exact armed), flag, same]
        rfl
      rw [raised, State.raise_both]
      refine ⟨⟨v, _, _, by rw [same]; rfl⟩, fun j => ?_, fun x => ?_⟩
      · rw [if_neg retired]
        exact slot j
      · rw [State.startupDemands, if_neg retired, if_pos armed, ← List.cons_append, List.foldl_append, ← queue]
        cases x <;> rfl
    · have flag : s.startupFlag = s.renewal.activation := if_neg fun ⟨_, yes⟩ => armed yes
      have still : w.batchConditioned = w := if_neg (by rw [same]; exact armed)
      rw [still]
      refine ⟨⟨v, m, n, by rw [same, flag]; rfl⟩, fun j => ?_, fun x => ?_⟩
      · rw [if_neg retired]
        exact slot j
      · rw [State.startupDemands, if_neg retired, if_neg armed, List.append_nil]
        exact queue x

/-- The part at the end of start-up, before the tests that RUN makes (R171, R189). -/
def State.started (s : State) : State :=
  { s with
    supply := { s.supply with run := s.supply.endState }
    time := { s.time with tickTimer := .running, beatTimer := .running }
    portM := { s.portM with address := portAddress s.supply.adrM }
    portL := { s.portL with address := portAddress s.supply.adrL } }

theorem endStartup_eq (s : State) :
    s.endStartup = if s.supply.endState = .run then s.started.checkpointTest.commitStart else s.started := rfl

/-- Where start-up does not end in RUN it makes no test (R171). -/
theorem finish_of_not_run (ending : s.supply.endState ≠ .run) : s.finish = s.conditions.started := by
  obtain ⟨⟨v, m, n, same⟩, -, -⟩ := conditions_met s
  rw [State.finish, endStartup_eq, if_neg (by rwa [same])]

theorem finish_of_run (ending : s.supply.endState = .run) : s.finish = s.conditions.started.checkpointTest.commitStart := by
  obtain ⟨⟨v, m, n, same⟩, -, -⟩ := conditions_met s
  rw [State.finish, endStartup_eq, if_pos (by rwa [same])]

theorem arrive_head {q : List Demand} {d e : Demand} (head : q.head? = some e) (other : d.kind ≠ e.kind) :
    (arrive q d).head? = some e := by
  cases q with
  | nil => exact absurd head nofun
  | cons x rest =>
    obtain rfl : x = e := Option.some.inj head
    have differs : d.same x = false := by simp [Demand.same, other]
    unfold arrive
    split
    · rfl
    · split
      · simp [differs]
      · split <;> rfl

theorem foldl_arrive_head {q l : List Demand} {e : Demand} (head : q.head? = some e) (other : ∀ d ∈ l, d.kind ≠ e.kind) :
    (l.foldl arrive q).head? = some e := by
  induction l generalizing q with
  | nil => exact head
  | cons d l ih =>
    exact ih (arrive_head head (other d List.mem_cons_self)) fun x mem => other x (List.mem_cons_of_mem d mem)

theorem conditionDemands_kind {i : Fin 24} {g t : Nat} {low spent life expired : Bool} {d : Demand}
    (mem : d ∈ conditionDemands i g t low spent life expired) :
    d.kind = .counterLow ∨ d.kind = .spent ∨ d.kind = .lifeLow ∨ d.kind = .expired := by
  unfold conditionDemands at mem
  obtain ⟨⟨raised, kind⟩, listed, made⟩ := List.mem_filterMap.mp mem
  have same : d.kind = kind := by
    cases raised with
    | false => exact absurd made nofun
    | true =>
      obtain rfl := Option.some.inj made
      rfl
  rw [same]
  simp only [List.mem_cons, Prod.mk.injEq, List.not_mem_nil, or_false] at listed
  exact listed.imp And.right (Or.imp And.right (Or.imp And.right And.right))

theorem conditionsFor_kind {c : Slot} {i : Fin 24} {t : Nat} {spent : Bool} {x : Port} {d : Demand}
    (mem : d ∈ c.conditionsFor i t spent x) : d.kind ≠ .restarted := by
  unfold Slot.conditionsFor at mem
  cases current : c.current with
  | none =>
    rw [current] at mem
    exact absurd mem List.not_mem_nil
  | some k =>
    rw [current, Option.elim_some] at mem
    split at mem
    · rcases conditionDemands_kind mem with kind | kind | kind | kind <;> simp [kind]
    · exact absurd mem List.not_mem_nil

/-- RESTARTED leads an empty queue after stage 6, whatever follows it (R186). -/
theorem startupDemands_head (s : State) (x : Port) (empty : s.queue x = []) :
    ((s.startupDemands x).foldl arrive (s.queue x)).head? = some ⟨.restarted, none, none, none, s.time.t⟩ := by
  rw [empty, State.startupDemands, List.foldl_cons]
  refine foldl_arrive_head rfl fun d mem => ?_
  split at mem
  · exact absurd mem List.not_mem_nil
  · rcases List.mem_append.mp mem with cell | batch
    · obtain ⟨i, -, cell⟩ := List.mem_flatMap.mp cell
      exact conditionsFor_kind cell
    · split at batch
      · obtain rfl := List.mem_singleton.mp batch
        exact nofun
      · exact absurd batch List.not_mem_nil

end

end Sys2Proof.Machine
end

section
/-! PROOFS. A second write failure (R150): the entry into FAULT from RUN and FLUSH, and the fault mark in STARTING. -/

namespace Sys2Proof.Machine

/-! ## The requests that FAULT refuses (R58, R96) -/

/-- The port record after a refusal with FAULT. -/
def PortRecord.FaultRefused (r : PortRecord) : Prop := r.request = none ∧ r.reply = .reply .fault [] ∧ r.lastRefusal = .fault

section
variable {s t : State} {p x : Port}

theorem completed_faultRefused (r : PortRecord) : (r.completed .fault []).FaultRefused := by
  refine ⟨PortRecord.completed_request .., PortRecord.completed_reply .., ?_⟩
  unfold PortRecord.completed
  dsimp only
  split <;> rfl

theorem refuse_port (s : State) (p x : Port) (st : Status) :
    (s.refuse p st).port x = if x = p then (s.port p).completed st [] else s.port x := by
  cases p <;> cases x <;> rfl

theorem refuse_eq (s : State) (p : Port) (st : Status) : ∃ m n, s.refuse p st = { s with portM := m, portL := n } := by
  cases p
  · exact ⟨_, s.portL, rfl⟩
  · exact ⟨s.portM, _, rfl⟩

/-- Refusals with FAULT at the ports `ps` change those ports alone. -/
theorem foldl_refuse (s : State) (ps : List Port) :
    (∃ m n, ps.foldl (fun t p => t.refuse p .fault) s = { s with portM := m, portL := n }) ∧
    (∀ x, ((ps.foldl (fun t p => t.refuse p .fault) s).port x).FaultRefused ∨
      (ps.foldl (fun t p => t.refuse p .fault) s).port x = s.port x) ∧
    ∀ x ∈ ps, ((ps.foldl (fun t p => t.refuse p .fault) s).port x).FaultRefused := by
  induction ps using list_induction_from_end with
  | nil => exact ⟨⟨s.portM, s.portL, rfl⟩, fun _ => .inr rfl, nofun⟩
  | append_singleton ps p ih =>
    obtain ⟨⟨m, n, same⟩, either, refused⟩ := ih
    rw [List.foldl_append, List.foldl_cons, List.foldl_nil]
    generalize ps.foldl (fun t p => t.refuse p .fault) s = t at *
    have stays {x : Port} (refused : (t.port x).FaultRefused) : ((t.refuse p .fault).port x).FaultRefused := by
      rw [refuse_port]
      split
      · exact completed_faultRefused _
      · exact refused
    refine ⟨?_, fun x => ?_, fun x mem => ?_⟩
    · obtain ⟨m', n', eq⟩ := refuse_eq t p .fault
      rw [eq, same]
      exact ⟨m', n', rfl⟩
    · rcases either x with refused | same
      · exact .inl (stays refused)
      · rw [refuse_port]
        split
        · exact .inl (completed_faultRefused _)
        · exact .inr same
    · rcases List.mem_append.mp mem with old | new
      · exact stays (refused x old)
      · obtain rfl := List.mem_singleton.mp new
        rw [refuse_port, if_pos rfl]
        exact completed_faultRefused _

end

/-- What the end of the write waits of the slots `l` at the entry into FAULT leaves of `s` (R58). -/
structure State.WaitsFaulted (s : State) (l : List (Fin 24)) (t : State) : Prop where
  same : ∃ v m n, t = { s with slots := v, portM := m, portL := n }
  slot : ∀ j, t.slot j = if j ∈ l then { s.slot j with wait := none } else s.slot j
  port : ∀ x, (t.port x).FaultRefused ∨ t.port x = s.port x
  waits : ∀ i ∈ l, ∀ w, (s.slot i).wait = some w → ∀ x ∈ w.owner :: w.waiters, (t.port x).FaultRefused

theorem State.WaitsFaulted.foldl (s : State) (l : List (Fin 24)) : s.WaitsFaulted l (l.foldl State.faultWait s) := by
  induction l using list_induction_from_end with
  | nil => exact ⟨⟨s.slots, s.portM, s.portL, rfl⟩, fun _ => rfl, fun _ => .inr rfl, nofun⟩
  | append_singleton l i ih =>
    rw [List.foldl_append, List.foldl_cons, List.foldl_nil]
    generalize l.foldl State.faultWait s = t at *
    obtain ⟨⟨v, m, n, same⟩, slot, port, waits⟩ := ih
    cases wait : (t.slot i).wait with
    | none =>
      have still : t.faultWait i = t := by rw [State.faultWait, wait]
      have gone : i ∉ l → (s.slot i).wait = none := fun new => by rwa [slot, if_neg new] at wait
      rw [still]
      refine ⟨⟨v, m, n, same⟩, fun j => ?_, port, fun j mem w held x waiting => ?_⟩
      · rw [slot]
        by_cases old : j ∈ l
        · simp [old]
        · by_cases this : j = i
          · subst this
            have eta : { s.slot j with wait := none } = s.slot j := by rw [← gone old]
            simp [eta]
          · simp [old, this]
      · by_cases old : j ∈ l
        · exact waits j old w held x waiting
        · obtain rfl := List.mem_singleton.mp ((List.mem_append.mp mem).resolve_left old)
          exact absurd ((gone old).symm.trans held) nofun
    | some w =>
      have new : i ∉ l := fun old => by simp [slot, old] at wait
      have here : t.slot i = s.slot i := (slot i).trans (if_neg new)
      obtain ⟨⟨m', n', eq⟩, either, refused⟩ := foldl_refuse (t.setSlot i { t.slot i with wait := none }) (w.owner :: w.waiters)
      have acts : t.faultWait i = (w.owner :: w.waiters).foldl (fun t p => t.refuse p .fault) (t.setSlot i { t.slot i with wait := none }) := by
        rw [State.faultWait, wait]
      rw [← acts] at eq either refused
      have either (x : Port) : ((t.faultWait i).port x).FaultRefused ∨ (t.faultWait i).port x = t.port x := by
        simpa using either x
      refine ⟨⟨(t.setSlot i { t.slot i with wait := none }).slots, m', n', by rw [eq, same]; rfl⟩, fun j => ?_, fun x => ?_,
        fun j mem u held x waiting => ?_⟩
      · have slots : (t.faultWait i).slot j = (t.setSlot i { t.slot i with wait := none }).slot j := by rw [eq]; rfl
        rw [slots]
        by_cases this : j = i
        · subst this
          rw [State.slot_setSlot, here]
          simp
        · rw [t.slot_setSlot_ne (Ne.symm this), slot]
          simp [this]
      · rcases either x with refused | same
        · exact .inl refused
        · rw [same]
          exact port x
      · rcases List.mem_append.mp mem with old | last
        · rcases either x with refused | same
          · exact refused
          · rw [same]
            exact waits j old u held x waiting
        · obtain rfl := List.mem_singleton.mp last
          rw [here, held] at wait
          obtain rfl := Option.some.inj wait
          exact refused x waiting

/-! ## The entry into FAULT (R98, R118, R150, R167) -/

/-- The state in which the second failure has dropped every write, before the write waits end (R150, R167). -/
def State.writesDropped (s : State) : State :=
  { s.setRun .fault with journal := s.journal.dropped, time := s.time.faulted }

/-- The write waits at the entry into FAULT, ended (R58). -/
@[irreducible] def State.waitsEnded (s : State) : State := (List.finRange 24).foldl State.faultWait s.writesDropped

/-- The entry into FAULT before the event settles (R167). -/
def State.faulted (s : State) : State := s.waitsEnded.faultBatch.faultCancel

theorem enterFault_eq (s : State) : s.enterFault = s.faulted.settle := by
  unfold State.enterFault State.faulted State.waitsEnded State.writesDropped
  generalize List.finRange 24 = l
  rfl

/-! ## The batch and the CANCEL at the entry into FAULT (R96, R98, R118) -/

/-- A CANCEL is in flight at the port. -/
def PortRecord.Cancels (r : PortRecord) : Prop := ∃ q, r.request = some (.cancel q)

section
variable {s t : State} {x : Port}

theorem cancels_of_canceller (cancel : s.canceller = some x) : (s.port x).Cancels ∧ (x = .L → ¬ s.portM.Cancels) := by
  unfold State.canceller at cancel
  split at cancel
  next q at_ =>
    obtain rfl : Port.M = x := Option.some.inj cancel
    exact ⟨⟨_, at_⟩, nofun⟩
  next at_ not =>
    obtain rfl : Port.L = x := Option.some.inj cancel
    exact ⟨⟨_, at_⟩, fun _ ⟨q, other⟩ => not q other⟩
  next => exact absurd cancel nofun

theorem canceller_of_cancels (cancels : (s.port x).Cancels) (first : x = .L → ¬ s.portM.Cancels) : s.canceller = some x := by
  unfold State.canceller
  split
  next q at_ =>
    cases x with
    | M => rfl
    | L => exact absurd ⟨_, at_⟩ (first rfl)
  next at_ not =>
    cases x with
    | M =>
      obtain ⟨q, other⟩ := cancels
      exact absurd other (not q)
    | L => rfl
  next notM notL =>
    obtain ⟨q, at_⟩ := cancels
    cases x with
    | M => exact absurd at_ (notM q)
    | L => exact absurd at_ (notL q)

/-- Where FAULT has refused some requests, a CANCEL in flight is refused or is still the one in flight. -/
theorem canceller_of_refused (cancel : s.canceller = some x) (port : ∀ y, (t.port y).FaultRefused ∨ t.port y = s.port y) :
    (t.port x).FaultRefused ∨ t.canceller = some x := by
  obtain ⟨cancels, first⟩ := cancels_of_canceller cancel
  refine (port x).imp_right fun same => canceller_of_cancels (by rwa [PortRecord.Cancels, same]) fun last => ?_
  rcases port .M with ⟨gone, -⟩ | sameM
  · rintro ⟨q, at_⟩
    exact absurd (gone.symm.trans at_) nofun
  · have sameM : t.portM = s.portM := sameM
    rw [sameM]
    exact first last

/-- What becomes of a batch at the entry into FAULT leaves the rest of the part, and of the slots the NEXT cells alone (R98, R118). -/
structure State.BatchFaulted (s t : State) : Prop where
  supply : t.supply = s.supply
  time : t.time = s.time
  portM : t.portM = s.portM
  portL : t.portL = s.portL
  commit : t.commit = if s.renewal.state = .committing then none else s.commit
  journal : s.journal.queue = [] → s.journal.place = [] → t.journal.queue = [] ∧ t.journal.place = []
  held : t.journal.ring = s.journal.ring ∧ t.journal.writePosition = s.journal.writePosition ∧ t.journal.lap = s.journal.lap
  slot : ∀ i, { t.slot i with next := none } = { s.slot i with next := none }

theorem faultBatch_of_early (early : s.renewal.state = .staging ∨ s.renewal.state = .checking) : s.faultBatch = s.refuseBatch .fault := by
  rcases early with state | state <;> rw [State.faultBatch, state]

theorem faultBatch_of_armed (armed : s.renewal.state = .armed) : s.faultBatch = s.withdrawHold := by rw [State.faultBatch, armed]

theorem faultBatch_of_committing (committing : s.renewal.state = .committing) :
    s.faultBatch = { s with commit := none, arbiter := { s.arbiter with hold := .none } } := by rw [State.faultBatch, committing]

theorem faultBatch_of_idle (idle : s.renewal.state = .idle) : s.faultBatch = s := by rw [State.faultBatch, idle]

theorem batchEnded_of_empty {j : Journal} (queue : j.queue = []) (place : j.place = []) (sequence : Nat) :
    (j.batchEnded sequence).queue = [] ∧ (j.batchEnded sequence).place = [] := by
  unfold Journal.batchEnded Journal.refilled
  rw [queue, place]
  exact ⟨rfl, rfl⟩

theorem faultBatch_faulted (s : State) : s.BatchFaulted s.faultBatch := by
  have refused (early : s.renewal.state = .staging ∨ s.renewal.state = .checking) : s.BatchFaulted s.faultBatch := by
    obtain ⟨v, slots, eq⟩ := refuseBatch_eq s .fault
    rw [faultBatch_of_early early, eq]
    exact
      { supply := rfl, time := rfl, portM := rfl, portL := rfl, held := ⟨rfl, rfl, rfl⟩
        commit := (if_neg (by rcases early with state | state <;> simp [state])).symm
        journal := fun queue place => batchEnded_of_empty queue place _
        slot := fun i => congrArg (fun c : Slot => { c with next := none }) (slots i) }
  cases state : s.renewal.state with
  | staging => exact refused (.inl state)
  | checking => exact refused (.inr state)
  | armed =>
    rw [faultBatch_of_armed state]
    exact { supply := rfl, time := rfl, portM := rfl, portL := rfl, held := ⟨rfl, rfl, rfl⟩, commit := (if_neg (by simp [state])).symm
            journal := fun queue place => ⟨queue, place⟩, slot := fun _ => rfl }
  | committing =>
    rw [faultBatch_of_committing state]
    exact { supply := rfl, time := rfl, portM := rfl, portL := rfl, held := ⟨rfl, rfl, rfl⟩, commit := (if_pos state).symm
            journal := fun queue place => ⟨queue, place⟩, slot := fun _ => rfl }
  | idle =>
    rw [faultBatch_of_idle state]
    exact { supply := rfl, time := rfl, portM := rfl, portL := rfl, held := ⟨rfl, rfl, rfl⟩, commit := (if_neg (by simp [state])).symm
            journal := fun queue place => ⟨queue, place⟩, slot := fun _ => rfl }

/-- The refusal of a waiting CANCEL changes the ports alone, and leaves no CANCEL that was in flight (R96, R98). -/
theorem faultCancel_spec (s : State) : (∃ m n, s.faultCancel = { s with portM := m, portL := n }) ∧
    (∀ x, (s.faultCancel.port x).FaultRefused ∨ s.faultCancel.port x = s.port x) ∧
    ∀ x, s.canceller = some x → (s.faultCancel.port x).FaultRefused := by
  unfold State.faultCancel
  split
  next p found =>
    refine ⟨refuse_eq s p .fault, fun x => ?_, fun x cancel => ?_⟩
    · rw [refuse_port]
      split
      · exact .inl (completed_faultRefused _)
      · exact .inr rfl
    · obtain rfl : p = x := Option.some.inj (found.symm.trans cancel)
      rw [refuse_port, if_pos rfl]
      exact completed_faultRefused _
  next none => exact ⟨⟨s.portM, s.portL, rfl⟩, fun _ => .inr rfl, fun x cancel => absurd (none.symm.trans cancel) nofun⟩

end

/-! ## FAULT from RUN and FLUSH -/

theorem waitsEnded_spec (s : State) : (∃ v m n, s.waitsEnded = { s.writesDropped with slots := v, portM := m, portL := n }) ∧
    (∀ i, s.waitsEnded.slot i = { s.slot i with wait := none }) ∧
    (∀ x, (s.waitsEnded.port x).FaultRefused ∨ s.waitsEnded.port x = s.port x) ∧
    ∀ i w, (s.slot i).wait = some w → ∀ x ∈ w.owner :: w.waiters, (s.waitsEnded.port x).FaultRefused := by
  have ended : s.writesDropped.WaitsFaulted (List.finRange 24) s.waitsEnded := by
    unfold State.waitsEnded
    exact .foldl _ _
  generalize s.waitsEnded = t at *
  obtain ⟨same, slot, port, waits⟩ := ended
  refine ⟨same, fun i => (slot i).trans (if_pos (List.mem_finRange i)), fun x => ?_, fun i => waits i (List.mem_finRange i)⟩
  have still : s.writesDropped.port x = s.port x := by cases x <;> rfl
  rw [← still]
  exact port x

/-- The second failure spoils what was being written and moves nothing (R150). -/
theorem secondFailure_held (j : Journal) (w : Write) :
    (j.secondFailure w).writePosition = j.writePosition ∧ (j.secondFailure w).lap = j.lap ∧
    (∀ k, k ≠ j.writePosition → cellGet k (j.secondFailure w).ring = cellGet k j.ring) ∧
    ∀ b, w = .append b → cellGet j.writePosition (j.secondFailure w).ring = some .spoiled := by
  cases w with
  | append b => exact ⟨rfl, rfl, fun k other => cellGet_cellSet_ne other .., fun _ _ => cellGet_cellSet_same ..⟩
  | bankWrite i k g key => exact ⟨rfl, rfl, fun _ _ => rfl, fun _ append => nomatch append⟩
  | bankErase i k => exact ⟨rfl, rfl, fun _ _ => rfl, fun _ append => nomatch append⟩

theorem execWriteFailure_second {s : State} {e : Entry} {rest : List Entry} (queue : s.journal.queue = e :: rest)
    (failures : s.journal.failures ≠ 0) : exec .writeFailure s =
      if s.supply.run = .starting then .next (State.startupFault { s with journal := s.journal.secondFailure e.write }).settle
      else .next (State.faulted { s with journal := s.journal.secondFailure e.write }).settle := by
  change execWriteFailure s = _
  rw [execWriteFailure, queue]
  dsimp only
  rw [if_neg failures, enterFault_eq]

/-- The part at the entry into FAULT but for its slots, ports, batch and commit (R127, R150, R167). -/
theorem faulted_frame (s : State) :
    s.faulted.supply = { s.supply with run := .fault } ∧ s.faulted.journal.queue = [] ∧ s.faulted.journal.place = [] ∧
    s.faulted.journal.ring = s.journal.ring ∧ s.faulted.journal.writePosition = s.journal.writePosition ∧
    s.faulted.journal.lap = s.journal.lap ∧ s.faulted.time = { s.time with checkpoint := none, deferred := false } ∧
    s.faulted.commit = if s.renewal.state = .committing then none else s.commit := by
  obtain ⟨⟨v, m, n, same⟩, -, -, -⟩ := waitsEnded_spec s
  obtain ⟨⟨m', n', eq⟩, -, -⟩ := faultCancel_spec s.waitsEnded.faultBatch
  have batch := faultBatch_faulted s.waitsEnded
  obtain ⟨queue, place⟩ := batch.journal (by rw [same]; rfl) (by rw [same]; rfl)
  obtain ⟨ring, position, lap⟩ := batch.held
  rw [State.faulted, eq]
  refine ⟨batch.supply.trans ?_, queue, place, ring.trans ?_, position.trans ?_, lap.trans ?_, batch.time.trans ?_, batch.commit.trans ?_⟩
  all_goals rw [same]; rfl

/-- The slots at the entry into FAULT: their NEXT cells and write waits alone may go (R58, R98). -/
theorem faulted_slot (s : State) (i : Fin 24) :
    { s.faulted.slot i with next := none } = { s.slot i with next := none, wait := none } := by
  obtain ⟨-, slot, -, -⟩ := waitsEnded_spec s
  obtain ⟨⟨m', n', eq⟩, -, -⟩ := faultCancel_spec s.waitsEnded.faultBatch
  rw [State.faulted, eq]
  refine ((faultBatch_faulted s.waitsEnded).slot i).trans ?_
  rw [slot]

/-- The requests at the entry into FAULT (R58, R96). -/
theorem faulted_ports (s : State) :
    (∀ i w, (s.slot i).wait = some w → ∀ x ∈ w.owner :: w.waiters, (s.faulted.port x).FaultRefused) ∧
    ∀ x, s.canceller = some x → (s.faulted.port x).FaultRefused := by
  obtain ⟨-, -, port, waits⟩ := waitsEnded_spec s
  obtain ⟨-, either, refused⟩ := faultCancel_spec s.waitsEnded.faultBatch
  have batch := faultBatch_faulted s.waitsEnded
  have through (x : Port) : s.waitsEnded.faultBatch.port x = s.waitsEnded.port x := by
    cases x
    · exact batch.portM
    · exact batch.portL
  have stays (x : Port) (gone : (s.waitsEnded.port x).FaultRefused) : (s.faulted.port x).FaultRefused := by
    rcases either x with yes | same
    · exact yes
    · rw [State.faulted, same, through]
      exact gone
  refine ⟨fun i w wait x waiting => stays x (waits i w wait x waiting), fun x cancel => ?_⟩
  rcases canceller_of_refused cancel port with gone | still
  · exact stays x gone
  · exact refused x (by rwa [canceller_congr batch.portM batch.portL])

/-- The batch at the entry into FAULT (R98, R118). -/
theorem faulted_batch (s : State) : ∃ v m n, s.faulted = { State.faultBatch { s.writesDropped with slots := v, portM := m, portL := n } with
    portM := s.faulted.portM, portL := s.faulted.portL } := by
  obtain ⟨⟨v, m, n, same⟩, -, -, -⟩ := waitsEnded_spec s
  obtain ⟨⟨m', n', eq⟩, -, -⟩ := faultCancel_spec s.waitsEnded.faultBatch
  refine ⟨v, m, n, ?_⟩
  rw [State.faulted, eq, same]

/-! ## A second failure in STARTING (R156, R170, R177) -/

section
variable {s : State}

/-- Where no write may be handed over the erase passes over items alone (R176). -/
theorem eraseOn_of_may_not (may : s.eraseMayHand = false) (n : Nat) : ∃ e, State.eraseOn n s = s.setErase e := by
  induction n generalizing s with
  | zero => exact ⟨s.supply.erase, rfl⟩
  | succ n ih =>
    unfold State.eraseOn
    split
    next i item _ =>
      split
      · obtain ⟨e, eq⟩ := ih (s := s.setErase (Erase.after i item)) may
        exact ⟨e, eq⟩
      · rw [if_neg (by simp [may])]
        exact ⟨s.supply.erase, rfl⟩
    · exact ⟨s.supply.erase, rfl⟩
    · exact ⟨s.supply.erase, rfl⟩

/-- With nothing in the queue and no write that may be handed over, stage 5 goes on to the end of start-up (R177). -/
theorem retirement_of_may_not (may : s.eraseMayHand = false) (queue : s.journal.queue = []) (place : s.journal.place = []) :
    ∃ e, s.retirement = (s.setErase e).finish := by
  unfold State.retirement
  split
  · obtain ⟨e, eq⟩ := eraseOn_of_may_not (s := s.setErase (.at 0 0)) may 97
    have walked : (s.setErase (.at 0 0)).eraseGo = s.setErase e := eq
    have idle : (s.setErase e).eraseBusy = false := by simp [State.eraseBusy, State.setErase, queue, place]
    dsimp only
    rw [walked, if_neg (by simp [idle])]
    exact ⟨e, rfl⟩
  · exact ⟨s.supply.erase, rfl⟩

/-- The part with the fault mark set and every write dropped (R170). -/
def State.startupDropped (s : State) : State := { s.markIf true with journal := s.journal.dropped, commit := none }

theorem startupFault_eq (starting : s.supply.run = .starting) :
    ∃ e, s.startupFault = (s.startupDropped.setErase e).finish ∧ (s.commit = none → e = s.supply.erase) := by
  have may : s.startupDropped.eraseMayHand = false := by simp [State.eraseMayHand, State.startupDropped, State.markIf, starting]
  unfold State.startupFault
  dsimp only
  split
  next rolling =>
    obtain ⟨e, eq⟩ := retirement_of_may_not (s := s.startupDropped) may rfl rfl
    exact ⟨e, eq, fun none => by simp [none] at rolling⟩
  next => exact ⟨s.supply.erase, rfl, fun _ => rfl⟩

end

/-- Settles O55. -/
theorem secondFailureEntersFault : Obligations.SecondFailureEntersFault := by
  intro s e rest queue failures
  have event := execWriteFailure_second queue failures
  obtain ⟨position, lap, ring, spoiled⟩ := secondFailure_held s.journal e.write
  refine ⟨fun run => ?_, fun starting => ?_⟩
  · have other : s.supply.run ≠ .starting := by rcases run with run | run <;> simp [run]
    rw [if_neg other] at event
    obtain ⟨supply, queued, place, ring', position', lap', time, commit⟩ := faulted_frame { s with journal := s.journal.secondFailure e.write }
    have slot := faulted_slot { s with journal := s.journal.secondFailure e.write }
    obtain ⟨waits, cancel⟩ := faulted_ports { s with journal := s.journal.secondFailure e.write }
    obtain ⟨v, m, n, batch⟩ := faulted_batch { s with journal := s.journal.secondFailure e.write }
    generalize State.faulted { s with journal := s.journal.secondFailure e.write } = u at *
    refine ⟨u, event, ?_, supply, by simp [State.acknowledges, supply], queued, place, position'.trans position, lap'.trans lap,
      fun k other => by rw [ring']; exact ring k other, time, commit, fun early => ?_, fun late => ?_, fun armed hold => ?_,
      fun committing => ?_, fun i => ?_, fun i w x wait waiting => waits i w wait x waiting, fun x found => ?_⟩
    · rw [settle_supply_of_not_flush (by simp [supply]), supply]
    · obtain ⟨w, -, refused⟩ := refuseBatch_eq
        { State.writesDropped { s with journal := s.journal.secondFailure e.write } with slots := v, portM := m, portL := n } .fault
      rw [batch, faultBatch_of_early (by exact early), refused]
      exact ⟨rfl, rfl, rfl, rfl⟩
    · rcases late with state | state | state
      · rw [batch, faultBatch_of_idle (by exact state)]
        exact ⟨rfl, rfl, rfl, rfl⟩
      · rw [batch, faultBatch_of_armed (by exact state)]
        exact ⟨rfl, rfl, rfl, rfl⟩
      · rw [batch, faultBatch_of_committing (by exact state)]
        exact ⟨rfl, rfl, rfl, rfl⟩
    · rw [batch, faultBatch_of_armed (by exact armed)]
      exact if_pos hold
    · rw [batch, faultBatch_of_committing (by exact committing)]
    · have slot := Slot.mk.inj (slot i)
      obtain ⟨role, -, -, policy, pin, current, -, prior, wait⟩ := slot
      exact ⟨current, prior, pin, role, policy, wait⟩
    · obtain ⟨request, reply, -⟩ := cancel x found
      exact ⟨request, reply⟩
  · rw [if_pos starting] at event
    obtain ⟨progress, fault, kept⟩ := startupFault_eq (s := { s with journal := s.journal.secondFailure e.write }) starting
    rw [fault, finish_of_not_run (by exact nofun)] at event
    obtain ⟨⟨v, m, n, same⟩, slot, queues⟩ :=
      conditions_met (State.setErase (State.startupDropped { s with journal := s.journal.secondFailure e.write }) progress)
    have head (empty : s.queueM = []) := (congrArg List.head? (queues .M)).trans (startupDemands_head _ .M empty)
    generalize State.conditions _ = w at *
    refine ⟨w.started, event, ?_, by rw [same]; rfl, by rw [same]; rfl, by rw [same]; rfl, by rw [same]; rfl, by rw [same]; rfl,
      by rw [same]; exact position, fun b append => by rw [same]; exact spoiled b append, fun k other => by rw [same]; exact ring k other,
      by rw [same]; rfl, by rw [same]; rfl, by rw [same]; rfl, by rw [same]; rfl, fun committing => ?_, fun none => by rw [same]; exact kept none,
      head, fun i => ?_⟩
    · rw [settle_supply_of_not_flush (by rw [same]; exact nofun), same]
      rfl
    · have flag : State.startupFlag (State.setErase (State.startupDropped { s with journal := s.journal.secondFailure e.write }) progress) =
          s.renewal.activation := if_neg fun ⟨_, armed⟩ => absurd (committing.symm.trans armed) nofun
      rw [same, flag]
      rfl
    · have slot : w.slot i = if s.supply.lifeCycle = .retired then s.slot i else (s.slot i).evaluated s.time.t := slot i
      change (w.slot i).role = _ ∧ (w.slot i).policy = _ ∧ (w.slot i).current.map _ = _
      rw [slot]
      split
      · exact ⟨rfl, rfl, rfl⟩
      · exact ⟨rfl, rfl, by rw [Slot.evaluated, Option.map_map]; rfl⟩

end Sys2Proof.Machine
end

section
/-! PROOFS. The walk of the RETIRED erase over its items (R176, R177). -/

namespace Sys2Proof.Machine

/-! ## The items in their order -/

theorem itemNumber_inj {i k : Fin 24} {item m : Fin 4} (same : itemNumber k m = itemNumber i item) : k = i ∧ m = item := by
  unfold itemNumber at same
  exact ⟨Fin.ext (by omega), Fin.ext (by omega)⟩

theorem itemNumber_le (i : Fin 24) (item : Fin 4) : itemNumber i item ≤ 95 := by
  unfold itemNumber
  omega

/-- The item after the one in hand is the next of the order, and after the last the erase is complete (R176). -/
theorem after_cases (i : Fin 24) (item : Fin 4) :
    (∃ k m, Erase.after i item = .at k m ∧ itemNumber k m = itemNumber i item + 1) ∨
    (Erase.after i item = .complete ∧ itemNumber i item = 95) := by
  unfold Erase.after itemNumber
  split
  · exact .inl ⟨_, _, rfl, by simp; omega⟩
  · split
    · exact .inl ⟨_, _, rfl, by simp; omega⟩
    · exact .inr ⟨rfl, by omega⟩

section
variable {s : State} {i : Fin 24} {item : Fin 4}

/-- An item with nothing to write is passed, so what stands from the next item stands from this one (R176). -/
theorem eraseStandsFrom_of_passed {n : Nat} (number : itemNumber i item = n) (none : s.eraseItem i item = none)
    (stands : s.EraseStandsFrom (n + 1)) : s.EraseStandsFrom n := by
  have passed (k : Fin 24) (m : Fin 4) (from_ : n ≤ itemNumber k m) (beyond : n + 1 ≤ itemNumber k m → s.eraseItem k m = .none) :
      s.eraseItem k m = .none := by
    rcases Nat.lt_or_ge n (itemNumber k m) with later | here
    · exact beyond later
    · obtain ⟨rfl, rfl⟩ := itemNumber_inj ((Nat.le_antisymm here from_).trans number.symm)
      exact none
  unfold State.EraseStandsFrom at stands ⊢
  split at stands
  · exact stands
  · obtain ⟨first, write, before⟩ := stands
    exact ⟨by omega, write, fun k m from_ upTo => passed k m from_ fun later => before k m later upTo⟩
  · exact fun k m from_ => passed k m from_ fun later => stands k m later

/-- What the erase hands over of the item in hand, where it may (R176, R177). -/
def State.eraseHanded (t : State) : State :=
  if t.eraseMayHand then t.eraseEntries.foldl (fun s e => s.handOver e.write e.requester) t else t

/-- The hand-over of an item changes the queue and the place list alone (R143). -/
theorem eraseHanded_eq (t : State) : ∃ q p, t.eraseHanded = { t with journal := { t.journal with queue := q, place := p } } := by
  have still : ∃ q p, t = { t with journal := { t.journal with queue := q, place := p } } := ⟨t.journal.queue, t.journal.place, rfl⟩
  unfold State.eraseHanded State.eraseEntries
  split
  · split
    · split
      · exact handOver_eq t _ _
      · exact still
    · exact still
  · exact still

theorem eraseOn_of_complete (complete : s.supply.erase = .complete) (fuel : Nat) : State.eraseOn fuel s = s.eraseHanded := by
  have none : s.eraseHanded = s := by
    rw [State.eraseHanded, State.eraseEntries, complete]
    exact ite_self s
  rw [none]
  cases fuel with
  | zero => rfl
  | succ fuel => rw [State.eraseOn, complete]

/-- The walk of the erase from the item in hand: it stands at the first item with a write or is complete (R176). -/
theorem eraseOn_stands (fuel : Nat) (at_ : s.supply.erase = .at i item) (enough : 95 < itemNumber i item + fuel) :
    ∃ e, (s.setErase e).EraseStandsFrom (itemNumber i item) ∧ State.eraseOn fuel s = (s.setErase e).eraseHanded := by
  induction fuel generalizing s i item with
  | zero => exact absurd (itemNumber_le i item) (by omega)
  | succ fuel ih =>
    have still : s.setErase (.at i item) = s := by rw [← at_]; rfl
    cases write : s.eraseItem i item with
    | some w =>
      refine ⟨.at i item, ?_, ?_⟩
      · refine ⟨Nat.le_refl _, ?_, fun k m from_ before => absurd from_ (by omega)⟩
        change (s.eraseItem i item).isSome = true
        rw [write]
        rfl
      · rw [State.eraseOn, at_, still, State.eraseHanded, State.eraseEntries, at_]
        dsimp only
        rw [write]
        rfl
    | none =>
      have walk : State.eraseOn (fuel + 1) s = State.eraseOn fuel (s.setErase (Erase.after i item)) := by
        rw [State.eraseOn, at_]
        dsimp only
        rw [write]
      rw [walk]
      rcases after_cases i item with ⟨k, m, next, number⟩ | ⟨last, number⟩
      · obtain ⟨e, stands, eq⟩ := ih (s := s.setErase (Erase.after i item)) (i := k) (item := m) next (by omega)
        rw [number] at stands
        exact ⟨e, eraseStandsFrom_of_passed (s := s.setErase e) rfl write stands, eq⟩
      · refine ⟨.complete, ?_, ?_⟩
        · refine fun k m from_ => ?_
          obtain ⟨rfl, rfl⟩ := itemNumber_inj (Nat.le_antisymm (number ▸ itemNumber_le k m) from_)
          exact write
        · rw [last]
          exact eraseOn_of_complete rfl fuel

/-- Stage by stage the erase may hand a write over only where the journal controller takes one (R150, R170). -/
theorem taken_of_eraseMayHand (may : s.eraseMayHand = true) :
    s.supply.run ≠ .fault ∧ ¬ (s.supply.run = .starting ∧ s.supply.faultMark = true) := by
  unfold State.eraseMayHand at may
  rcases Bool.or_eq_true_iff.mp may with run | starting
  · have run := of_decide_eq_true run
    simp [run]
  · simp only [Bool.and_eq_true, decide_eq_true_eq, Bool.not_eq_true'] at starting
    obtain ⟨⟨starting, -⟩, clear⟩ := starting
    simp [starting, clear]

/-- With room in the queue the write in hand stands at its end where it may be handed over (R143, R176). -/
theorem eraseHanded_of_room (room : s.journal.queue.length < 8) : s.eraseHanded =
      { s with journal := { s.journal with queue := s.journal.queue ++ if s.eraseMayHand then s.eraseEntries else [] } } := by
  unfold State.eraseHanded
  by_cases may : s.eraseMayHand = true
  · rw [if_pos may, if_pos may]
    obtain ⟨fault, marked⟩ := taken_of_eraseMayHand may
    have handing : s.handing = .queued := by rw [State.handing, if_neg (not_or.mpr ⟨fault, marked⟩), if_pos room]
    unfold State.eraseEntries
    split
    · split
      · simp [State.handOver, handing]
      · simp
    · simp
  · rw [if_neg may, if_neg may, List.append_nil]

end

end Sys2Proof.Machine
end

section
/-! PROOFS. The end of start-up (R169, R171, R186), the completion of COMMIT_END (R115 to R117, R155) and of an item of the erase (R176). -/

namespace Sys2Proof.Machine

theorem flatMap_eq_of_mem {α β : Type} {l : List α} {f g : α → List β} (same : ∀ a ∈ l, f a = g a) : l.flatMap f = l.flatMap g := by
  rw [List.flatMap_def, List.flatMap_def, List.map_congr_left same]

section
variable {s : State}

/-! ## The end of an event at which no requester waits (R64, R164) -/

/-- Where nothing is granted the end of the event changes the run state alone, and that in FLUSH alone. -/
theorem settle_of_grant_none (stays : s.grant = none) :
    ∃ r, s.settle = s.setRun r ∧ (s.supply.run ≠ .flush → r = s.supply.run) := by
  rw [State.settle, grants_of_grant_none _ stays, State.drain]
  split
  next drains => exact ⟨_, rfl, fun not => absurd drains.1 not⟩
  · exact ⟨s.supply.run, rfl, fun _ => rfl⟩

/-- The engine is free, no requester waits for it, and the hold is not requested (R63). -/
structure State.NoneWaits (s : State) : Prop where
  engine : s.engine = none
  resumed : s.arbiter.resumed = []
  hold : s.arbiter.hold = .none ∨ s.arbiter.hold = .granted
  waitM : s.arbiter.waitM = false
  waitL : s.arbiter.waitL = false
  checking : s.arbiter.checking = none

theorem State.NoneWaits.grant_none (waits : s.NoneWaits) : s.grant = none :=
  waits.hold.elim (fun hold => grant_none_of_no_requester waits.resumed hold waits.waitM waits.waitL waits.checking) grant_none_of_hold

theorem State.NoneWaits.of_same {t : State} (waits : s.NoneWaits) (engine : t.engine = s.engine) (arbiter : t.arbiter = s.arbiter) :
    t.NoneWaits := by
  obtain ⟨free, resumed, hold, waitM, waitL, checking⟩ := waits
  rw [← engine] at free
  rw [← arbiter] at resumed hold waitM waitL checking
  exact ⟨free, resumed, hold, waitM, waitL, checking⟩

theorem State.NoneWaits.released {t : State} (waits : s.NoneWaits) (engine : t.engine = s.engine)
    (arbiter : t.arbiter = { s.arbiter with hold := .none }) : t.NoneWaits :=
  ⟨engine.trans waits.engine, by rw [arbiter]; exact waits.resumed, .inl (by rw [arbiter]), by rw [arbiter]; exact waits.waitM,
    by rw [arbiter]; exact waits.waitL, by rw [arbiter]; exact waits.checking⟩

/-! ## Stages 6 and 7 of start-up (R169, R171, R186) -/

/-- The part at the end of start-up, after the checkpoint test that RUN makes (R171). -/
def State.startedTimed (s : State) : State :=
  if s.supply.endState = .run then s.conditions.started.checkpointTest else s.conditions.started

/-- A checkpoint is due at the end of start-up (R126, R171). -/
def State.StartDue (s : State) : Prop :=
  s.supply.endState = .run ∧ s.time.checkpoint = none ∧ s.time.tb < LIMIT ∧ s.time.tb ≤ s.time.t + 32

/-- What stages 6 and 7 of start-up leave of `s` before the commit start test (R169, R171, R186, R189). -/
structure State.Finished (s u : State) : Prop where
  same : ∃ v m n c q p, u = { s with
    slots := v, queueM := m, queueL := n
    renewal := { s.renewal with activation := s.startupFlag }
    supply := { s.supply with run := s.supply.endState }
    time := { s.time with checkpoint := c, tickTimer := .running, beatTimer := .running }
    portM := { s.portM with address := portAddress s.supply.adrM }
    portL := { s.portL with address := portAddress s.supply.adrL }
    journal := { s.journal with queue := q, place := p } }
  slot : ∀ j, u.slot j = if s.supply.lifeCycle = .retired then s.slot j else (s.slot j).evaluated s.time.t
  queue : ∀ x, u.queue x = (s.startupDemands x).foldl arrive (s.queue x)
  due : s.StartDue → u.time.checkpoint = some (min (s.time.t + 64) LIMIT) ∧ (s.journal.queue.length < 8 →
    u.journal.queue = s.journal.queue ++ [⟨.append (.time (min (s.time.t + 64) LIMIT)), .time⟩] ∧ u.journal.place = s.journal.place)
  notDue : ¬ s.StartDue → u.time.checkpoint = s.time.checkpoint ∧ u.journal = s.journal

theorem startedTimed_finished (s : State) : s.Finished s.startedTimed := by
  obtain ⟨⟨v, m, n, same⟩, slot, queue⟩ := conditions_met s
  rw [State.startedTimed]
  generalize s.conditions = w at *
  by_cases due : s.StartDue
  · rw [if_pos due.1]
    have test : w.started.CheckpointDue := by
      rw [same]
      exact ⟨.inl due.1, due.2⟩
    rw [checkpointTest_of_due _ test]
    have base : w.started.checkpointed = { s with
        slots := v, queueM := m, queueL := n
        renewal := { s.renewal with activation := s.startupFlag }
        supply := { s.supply with run := s.supply.endState }
        time := { s.time with checkpoint := some (min (s.time.t + 64) LIMIT), tickTimer := .running, beatTimer := .running }
        portM := { s.portM with address := portAddress s.supply.adrM }
        portL := { s.portL with address := portAddress s.supply.adrL } } := by
      rw [same]
      rfl
    have next : w.started.nextCheckpoint = min (s.time.t + 64) LIMIT := by rw [same]; rfl
    rw [base, next]
    subst same
    unfold State.handed
    refine ⟨?_, fun j => ?_, fun x => ?_, fun _ => ⟨?_, fun room => ?_⟩, fun not => absurd due not⟩
    · let e : Entry := ⟨.append (.time (min (s.time.t + 64) LIMIT)), .time⟩
      refine ⟨v, m, n, some (min (s.time.t + 64) LIMIT), ?_⟩
      split
      · exact ⟨s.journal.queue ++ [e], s.journal.place, rfl⟩
      · exact ⟨s.journal.queue, s.journal.place ++ [e], rfl⟩
    · rw [← slot]
      split <;> rfl
    · rw [← queue]
      split <;> cases x <;> rfl
    · split <;> rfl
    · rw [if_pos room]
      exact ⟨rfl, rfl⟩
  · have still : (if s.supply.endState = .run then w.started.checkpointTest else w.started) = w.started := by
      split
      next run =>
        refine checkpointTest_of_not_due _ fun test => due ⟨run, ?_⟩
        rw [same] at test
        exact test.2
      · rfl
    rw [still]
    subst same
    refine ⟨⟨v, m, n, s.time.checkpoint, s.journal.queue, s.journal.place, rfl⟩, fun j => ?_, fun x => ?_, fun yes => absurd yes due,
      fun _ => ⟨rfl, rfl⟩⟩
    · exact slot j
    · rw [← queue]
      cases x <;> rfl

theorem finish_eq (s : State) : s.finish = if s.supply.endState = .run then s.startedTimed.commitStart else s.startedTimed := by
  unfold State.startedTimed
  by_cases run : s.supply.endState = .run
  · rw [if_pos run, if_pos run]
    exact finish_of_run run
  · rw [if_neg run, if_neg run]
    exact finish_of_not_run run

/-- Without an armed batch start-up ends with no commit start (R105, R171). -/
theorem finish_of_not_armed (armed : s.renewal.state ≠ .armed) : s.finish = s.startedTimed := by
  obtain ⟨⟨v, m, n, c, q, p, same⟩, -⟩ := startedTimed_finished s
  have stays : s.startedTimed.commitStart = s.startedTimed := commitStart_of_may_not fun may => armed (by
    have state := may.1
    rw [same] at state
    exact state)
  rw [finish_eq, stays, ite_self]

/-! ## The contents that a commit places (R115, R117) -/

/-- The slot that new contents make of the one they replace (R115). -/
def NewSlot.contents (x : NewSlot) (old : Slot) : Slot :=
  { role := x.role, userMap := x.userMap, notifyMap := x.notifyMap, policy := x.policy, pin := old.pin
    current := if x.installed then x.current else x.current.map fun k => k.keeping old.current
    next := none, prior := x.prior, wait := old.wait }

/-- The contents that a commit has for a slot. -/
def Commit.named (c : Commit) (i : Fin 24) : Option NewSlot := c.slots.find? fun x => decide (x.slot = i)

/-- All contents of the commit and its LIFECYCLE change have taken effect (R115, R117). -/
def State.contentsTaken (s : State) (c : Commit) : State := (s.takeAll c.slots).takeLifecycle c.lifecycle

theorem keeping_fixed (k : Current) (visible : Option Current) : ∃ c w l, k.keeping visible = { k with state := c, warned := w, lifeWarned := l } := by
  cases visible with
  | none => exact ⟨k.state, k.warned, k.lifeWarned, rfl⟩
  | some v => exact ⟨v.state, v.warned, v.lifeWarned, rfl⟩

/-- Neither the marks that a cell keeps nor its conditions change what the commit has computed of it (R115, R116). -/
theorem contents_evaluated_current (x : NewSlot) (old : Slot) (t : Nat) :
    ((x.contents old).evaluated t).current.map (fun k => (k.generation, k.activation, k.lifetime, k.counters, k.bank)) =
      x.current.map (fun k => (k.generation, k.activation, k.lifetime, k.counters, k.bank)) := by
  change Option.map _ (Option.map _ (if x.installed then x.current else x.current.map fun k => k.keeping old.current)) = _
  cases x.current with
  | none => rw [Option.map_none, ite_self]; rfl
  | some k =>
    split
    · rfl
    · obtain ⟨c, w, l, eq⟩ := keeping_fixed k old.current
      rw [Option.map_some, eq]
      rfl

theorem takeContents_slot (s : State) (x : NewSlot) (i : Fin 24) :
    (s.takeContents x).slot i = if x.slot = i then x.contents (s.slot i) else s.slot i := by
  unfold State.takeContents
  by_cases here : x.slot = i
  · subst here
    rw [State.slot_setSlot, if_pos rfl]
    rfl
  · rw [State.slot_setSlot_ne _ here, if_neg here]

theorem takeAll_slot (cs : List NewSlot) (nodup : (cs.map fun x => x.slot).Nodup) (s : State) (i : Fin 24) :
    (s.takeAll cs).slot i = (cs.find? fun x => decide (x.slot = i)).elim (s.slot i) fun x => x.contents (s.slot i) := by
  induction cs generalizing s with
  | nil => rfl
  | cons x cs ih =>
    obtain ⟨new, nodup⟩ := List.nodup_cons.mp nodup
    have step : s.takeAll (x :: cs) = (s.takeContents x).takeAll cs := rfl
    rw [step, ih nodup, takeContents_slot]
    by_cases here : x.slot = i
    · have later : (cs.find? fun y => decide (y.slot = i)) = none := by
        rw [List.find?_eq_none]
        intro y mem same
        exact new (List.mem_map.mpr ⟨y, mem, (of_decide_eq_true same).trans here.symm⟩)
      rw [if_pos here, later, List.find?_cons_of_pos (by simpa using here)]
      rfl
    · rw [if_neg here, List.find?_cons_of_neg (by simpa using here)]

theorem takeAll_eq (cs : List NewSlot) (s : State) : ∃ v, s.takeAll cs = { s with slots := v } := by
  induction cs generalizing s with
  | nil => exact ⟨s.slots, rfl⟩
  | cons x cs ih =>
    obtain ⟨v, eq⟩ := ih (s.takeContents x)
    exact ⟨v, eq⟩

theorem named_of_mem {c : Commit} (nodup : (c.slots.map fun x => x.slot).Nodup) {x : NewSlot} (mem : x ∈ c.slots) :
    c.named x.slot = some x := by
  unfold Commit.named
  revert nodup mem
  induction c.slots with
  | nil => exact fun _ mem => absurd mem List.not_mem_nil
  | cons y cs ih =>
    intro nodup mem
    obtain ⟨new, nodup⟩ := List.nodup_cons.mp nodup
    rcases List.mem_cons.mp mem with rfl | mem
    · exact List.find?_cons_of_pos (by simp)
    · have other : y.slot ≠ x.slot := fun same => new (List.mem_map.mpr ⟨x, mem, same.symm⟩)
      rw [List.find?_cons_of_neg (by simpa using other)]
      exact ih nodup mem

theorem named_eq_none {c : Commit} {i : Fin 24} (none : ∀ x ∈ c.slots, x.slot ≠ i) : c.named i = .none :=
  List.find?_eq_none.mpr fun x mem => by simpa using none x mem

theorem contentsTaken_eq (s : State) (c : Commit) : ∃ v, s.contentsTaken c = { s with
    slots := v
    supply := { s.supply with lifeCycle := c.lifecycle.elim s.supply.lifeCycle Prod.fst }
    time := { s.time with code := (c.lifecycle.bind Prod.snd).getD s.time.code } } := by
  obtain ⟨v, eq⟩ := takeAll_eq c.slots s
  unfold State.contentsTaken
  rw [eq]
  cases c.lifecycle with
  | none => exact ⟨v, rfl⟩
  | some l => exact ⟨v, rfl⟩

theorem contentsTaken_slot {c : Commit} (nodup : (c.slots.map fun x => x.slot).Nodup) (s : State) (i : Fin 24) :
    (s.contentsTaken c).slot i = (c.named i).elim (s.slot i) fun x => x.contents (s.slot i) := by
  rw [Commit.named, ← takeAll_slot c.slots nodup]
  unfold State.contentsTaken
  cases c.lifecycle with
  | none => rfl
  | some l => rfl

/-! ## COMMIT_END (R115 to R117) -/

/-- The part with the contents of the commit in place, the engine IDLE with result DONE and the hold released, and BATCH_DONE raised,
before the conditions of the named slots (R115, R116). -/
def State.doneRaised (s : State) (c : Commit) : State :=
  State.raiseBatch { s.contentsTaken c with
    renewal := { Renewal.idle with result := ⟨s.renewal.sequence, .done, s.renewal.result.steps⟩, lastCommitted := s.renewal.sequence }
    commit := none
    arbiter := { s.arbiter with hold := .none } } .batchDone s.renewal.sequence

theorem commitEnded_eq (s : State) (c : Commit) :
    s.commitEnded c = if c.lifecycle.any (fun l => decide (l.1 = .retired)) then
      ((c.slots.foldl State.endSlotQuiet (s.doneRaised c)).dropPins.setErase (.at 0 0)).eraseGo
    else (c.slots.map fun x => (x.slot, x.installed)).foldl (fun t e => t.cellEvaluated e.1 e.2) (s.doneRaised c) := by
  have fold (u : State) : c.slots.foldl State.endSlot u =
      (c.slots.map fun x => (x.slot, x.installed)).foldl (fun t e => t.cellEvaluated e.1 e.2) u := by
    rw [List.foldl_map]
    congr 1
    exact funext fun t => funext fun x => endSlot_eq t x
  rw [← fold]
  have arbiter : (s.contentsTaken c).arbiter = s.arbiter := by
    obtain ⟨v, eq⟩ := contentsTaken_eq s c
    rw [eq]
  unfold State.commitEnded State.doneRaised
  rw [← arbiter]
  rfl

theorem doneRaised_eq (s : State) (c : Commit) : ∃ v, s.doneRaised c = { s with
    slots := v
    supply := { s.supply with lifeCycle := c.lifecycle.elim s.supply.lifeCycle Prod.fst }
    time := { s.time with code := (c.lifecycle.bind Prod.snd).getD s.time.code }
    renewal := { Renewal.idle with result := ⟨s.renewal.sequence, .done, s.renewal.result.steps⟩, lastCommitted := s.renewal.sequence }
    commit := none
    arbiter := { s.arbiter with hold := .none }
    queueM := arrive s.queueM ⟨.batchDone, none, none, some s.renewal.sequence, s.time.t⟩
    queueL := arrive s.queueL ⟨.batchDone, none, none, some s.renewal.sequence, s.time.t⟩ } := by
  obtain ⟨v, eq⟩ := contentsTaken_eq s c
  refine ⟨v, ?_⟩
  unfold State.doneRaised
  rw [eq]
  rfl

theorem doneRaised_slot (s : State) (c : Commit) (i : Fin 24) : (s.doneRaised c).slot i = (s.contentsTaken c).slot i := rfl

theorem foldl_endSlotQuiet (cs : List NewSlot) (s : State) : ∃ v, cs.foldl State.endSlotQuiet s = { s with slots := v } := by
  induction cs generalizing s with
  | nil => exact ⟨s.slots, rfl⟩
  | cons x cs ih =>
    obtain ⟨k, step⟩ := endSlotQuiet_eq s x
    obtain ⟨v, eq⟩ := ih (s.endSlotQuiet x)
    refine ⟨v, ?_⟩
    rw [List.foldl_cons, eq, step]
    rfl

/-- To RETIRED every pin is removed and the erase goes on from its first item (R116, R175, R176). -/
theorem commitEnded_of_retiring {c : Commit} {code : Option Nat} (to_ : c.lifecycle = some (.retired, code)) :
    ∃ v, s.commitEnded c = (State.setErase { s.doneRaised c with slots := v } (.at 0 0)).eraseGo ∧
      ∀ i, (State.slot { s with slots := v } i).pin = none := by
  obtain ⟨v, quiet⟩ := foldl_endSlotQuiet c.slots (s.doneRaised c)
  obtain ⟨w, pins, dropped⟩ := mapSlots_eq { s.doneRaised c with slots := v } fun _ c => { c with pin := none }
  refine ⟨w, ?_, fun i => congrArg Slot.pin (pins i)⟩
  rw [commitEnded_eq, to_, Option.any_some, if_pos (by simp), quiet, State.dropPins, dropped]

/-- In every other case the conditions of the named slots are evaluated (R116). -/
theorem commitEnded_of_staying {c : Commit} (nodup : (c.slots.map fun x => x.slot).Nodup) (to_ : ∀ l ∈ c.lifecycle, l.1 ≠ .retired) :
    (s.doneRaised c).CellsEvaluated (c.slots.map fun x => (x.slot, x.installed)) (s.commitEnded c) := by
  rw [commitEnded_eq, if_neg fun retiring => by
    obtain ⟨l, change, retired⟩ := (Option.any_eq_true ..).mp retiring
    exact to_ l change (of_decide_eq_true retired)]
  refine .foldl _ _ ?_
  rw [List.map_map]
  exact nodup

/-- What the completion of COMMIT_END leaves, whatever its contents (R115 to R117, R155). -/
structure State.EndsCommit (s : State) (c : Commit) (u : State) : Prop where
  renewal : u.renewal.state = .idle ∧ u.renewal.header = none ∧ u.renewal.applied = [] ∧ u.renewal.activation = false ∧
    u.renewal.lastCommitted = s.renewal.sequence
  commit : u.commit = none
  engine : u.engine = s.engine
  held : s.journal.SameHeld u.journal
  lifeCycle : u.supply.lifeCycle = c.lifecycle.elim s.supply.lifeCycle Prod.fst
  time : ∃ k x y, u.time = { s.time with
    code := (c.lifecycle.bind Prod.snd).getD s.time.code, checkpoint := k, tickTimer := x, beatTimer := y }
  waits : s.NoneWaits → u.NoneWaits

theorem commitEnded_endsCommit {c : Commit} (nodup : (c.slots.map fun x => x.slot).Nodup) : s.EndsCommit c (s.commitEnded c) ∧
    (s.commitEnded c).time = { s.time with code := (c.lifecycle.bind Prod.snd).getD s.time.code } ∧
    (s.commitEnded c).portM = s.portM ∧ (s.commitEnded c).portL = s.portL ∧ (s.commitEnded c).arbiter.hold = .none ∧
    (s.commitEnded c).renewal.result = ⟨s.renewal.sequence, .done, s.renewal.result.steps⟩ := by
  obtain ⟨v, done⟩ := doneRaised_eq s c
  have frame : ∃ v m n e q p, s.commitEnded c = { s.doneRaised c with
      slots := v, queueM := m, queueL := n
      supply := { (s.doneRaised c).supply with erase := e }
      journal := { s.journal with queue := q, place := p } } := by
    by_cases retiring : ∃ l ∈ c.lifecycle, l.1 = .retired
    · obtain ⟨⟨l, code⟩, change, rfl⟩ := retiring
      obtain ⟨w, eq, -⟩ := commitEnded_of_retiring (s := s) change
      obtain ⟨e, q, p, on⟩ := eraseOn_eq 97 (State.setErase { s.doneRaised c with slots := w } (.at 0 0))
      exact ⟨w, _, _, e, q, p, eq.trans (on.trans (by rw [done]; rfl))⟩
    · obtain ⟨⟨v, m, n, eq⟩, -, -⟩ := commitEnded_of_staying (s := s) nodup fun l change to_ => retiring ⟨l, change, to_⟩
      refine ⟨v, m, n, s.supply.erase, s.journal.queue, s.journal.place, eq.trans ?_⟩
      rw [done]
  obtain ⟨v, m, n, e, q, p, eq⟩ := frame
  rw [eq, done]
  exact ⟨⟨⟨rfl, rfl, rfl, rfl, rfl⟩, rfl, rfl, ⟨q, p, s.journal.failures, rfl⟩, rfl, ⟨_, _, _, rfl⟩, fun waits => waits.released rfl rfl⟩,
    rfl, rfl, rfl, rfl, rfl⟩

/-! ## The COMMIT_END of a roll-forward (R155) -/

/-- The part with the contents of the roll-forward in place and the engine IDLE, before stage 5 of start-up (R155). -/
def State.rolled (s : State) (c : Commit) : State :=
  { s.contentsTaken c with renewal := { Renewal.idle with lastCommitted := s.renewal.sequence }, commit := none }

theorem rolled_eq (s : State) (c : Commit) : ∃ v, s.rolled c = { s with
    slots := v
    supply := { s.supply with lifeCycle := c.lifecycle.elim s.supply.lifeCycle Prod.fst }
    time := { s.time with code := (c.lifecycle.bind Prod.snd).getD s.time.code }
    renewal := { Renewal.idle with lastCommitted := s.renewal.sequence }
    commit := none } := by
  obtain ⟨v, eq⟩ := contentsTaken_eq s c
  exact ⟨v, by rw [State.rolled, eq]⟩

theorem rolledForward_eq (s : State) (c : Commit) : s.rolledForward c = (s.rolled c).retirement := rfl

/-- Stage 5: outside RETIRED start-up goes on to its end; in RETIRED the erase stands at an item first, and start-up goes on where no
item is with the controller (R169, R177). -/
theorem retirement_walks (s : State) :
    (s.supply.lifeCycle ≠ .retired ∧ s.retirement = s.finish) ∨
    (s.supply.lifeCycle = .retired ∧ ∃ e, (s.setErase e).EraseStandsFrom 0 ∧
      s.retirement = if (s.setErase e).eraseHanded.eraseBusy then (s.setErase e).eraseHanded else (s.setErase e).eraseHanded.finish) := by
  unfold State.retirement
  by_cases retired : s.supply.lifeCycle = .retired
  · obtain ⟨e, stands, on⟩ := eraseOn_stands (s := s.setErase (.at 0 0)) (i := 0) (item := 0) 97 rfl (by decide)
    have go : (s.setErase (.at 0 0)).eraseGo = (s.setErase e).eraseHanded := on
    refine .inr ⟨retired, e, stands, ?_⟩
    rw [if_pos retired]
    dsimp only
    rw [go]
  · rw [if_neg retired]
    exact .inl ⟨retired, rfl⟩

/-- Stage 5 with no armed batch, so that no commit starts at its end (R105, R169, R177). -/
theorem retirement_cases (armed : s.renewal.state ≠ .armed) :
    (s.supply.lifeCycle ≠ .retired ∧ s.retirement = s.startedTimed) ∨
    (s.supply.lifeCycle = .retired ∧ ∃ e, (s.setErase e).EraseStandsFrom 0 ∧
      s.retirement = if (s.setErase e).eraseHanded.eraseBusy then (s.setErase e).eraseHanded else (s.setErase e).eraseHanded.startedTimed) := by
  refine (retirement_walks s).imp (fun ⟨life, eq⟩ => ⟨life, eq.trans (finish_of_not_armed armed)⟩) fun ⟨retired, e, stands, eq⟩ => ?_
  have still : (s.setErase e).eraseHanded.renewal = s.renewal := by
    obtain ⟨q, p, eq⟩ := eraseHanded_eq (s.setErase e)
    rw [eq]
    rfl
  rw [finish_of_not_armed (by rwa [still])] at eq
  exact ⟨retired, e, stands, eq⟩

theorem rolledForward_endsCommit (s : State) (c : Commit) :
    s.EndsCommit c (s.rolledForward c) ∧ (s.rolledForward c).renewal.result = ⟨0, .none, []⟩ := by
  obtain ⟨v, rolled⟩ := rolled_eq s c
  have ends {w : State} {e : Erase} {q p : List Entry} (eq : w = { s.rolled c with
      supply := { (s.rolled c).supply with erase := e }, journal := { s.journal with queue := q, place := p } }) :
      (s.EndsCommit c w ∧ w.renewal.result = ⟨0, .none, []⟩) ∧
      (s.EndsCommit c w.startedTimed ∧ w.startedTimed.renewal.result = ⟨0, .none, []⟩) := by
    rw [rolled] at eq
    constructor
    · rw [eq]
      exact ⟨⟨⟨rfl, rfl, rfl, rfl, rfl⟩, rfl, rfl, ⟨q, p, s.journal.failures, rfl⟩, rfl, ⟨_, _, _, rfl⟩, fun waits => waits.of_same rfl rfl⟩, rfl⟩
    · obtain ⟨⟨v', m, n, k, q', p', same⟩, -⟩ := startedTimed_finished w
      have flag : w.startupFlag = false := by
        rw [State.startupFlag, if_neg fun ⟨_, armed⟩ => by rw [eq] at armed; exact absurd armed nofun, eq]
        rfl
      rw [same, flag, eq]
      exact ⟨⟨⟨rfl, rfl, rfl, rfl, rfl⟩, rfl, rfl, ⟨q', p', s.journal.failures, rfl⟩, rfl, ⟨_, _, _, rfl⟩, fun waits => waits.of_same rfl rfl⟩, rfl⟩
  have plain : s.rolled c = { s.rolled c with
      supply := { (s.rolled c).supply with erase := (s.rolled c).supply.erase }
      journal := { s.journal with queue := s.journal.queue, place := s.journal.place } } := by
    rw [rolled]
  have idle : (s.rolled c).renewal.state ≠ .armed := by rw [rolled]; exact nofun
  rw [rolledForward_eq]
  obtain ⟨-, eq⟩ | ⟨-, e, -, eq⟩ := retirement_cases idle
  · rw [eq]
    exact (ends plain).2
  · have handed : ∃ q p, ((s.rolled c).setErase e).eraseHanded = { s.rolled c with
        supply := { (s.rolled c).supply with erase := e }, journal := { s.journal with queue := q, place := p } } := by
      obtain ⟨q, p, eq⟩ := eraseHanded_eq ((s.rolled c).setErase e)
      rw [rolled] at eq ⊢
      exact ⟨q, p, eq⟩
    obtain ⟨q, p, handed⟩ := handed
    rw [eq]
    split
    · exact (ends handed).1
    · exact (ends handed).2

/-! ## What becomes visible (R115, R116, R186) -/

section
variable {c : Commit}

/-- The slot that the commit makes of slot `i`. -/
def State.placed (s : State) (c : Commit) (i : Fin 24) : Slot := (c.named i).elim (s.slot i) fun x => x.contents (s.slot i)

theorem not_retiring (life : c.lifecycle.elim s.supply.lifeCycle Prod.fst ≠ .retired) : ∀ l ∈ c.lifecycle, l.1 ≠ .retired := by
  intro l change
  rw [Option.mem_def.mp change] at life
  exact life

theorem placed_of_mem (nodup : (c.slots.map fun x => x.slot).Nodup) {x : NewSlot} (mem : x ∈ c.slots) :
    s.placed c x.slot = x.contents (s.slot x.slot) := by
  rw [State.placed, named_of_mem nodup mem]
  rfl

theorem placed_of_unnamed {i : Fin 24} (none : ∀ x ∈ c.slots, x.slot ≠ i) : s.placed c i = s.slot i := by
  rw [State.placed, named_eq_none none]
  rfl

theorem commitEnded_slot (nodup : (c.slots.map fun x => x.slot).Nodup) (to_ : ∀ l ∈ c.lifecycle, l.1 ≠ .retired) (i : Fin 24) :
    (s.commitEnded c).slot i = if ∃ x ∈ c.slots, x.slot = i then (s.placed c i).evaluated s.time.t else s.slot i := by
  have time : (s.doneRaised c).time.t = s.time.t := by
    obtain ⟨v, eq⟩ := doneRaised_eq s c
    rw [eq]
  have mem : i ∈ (c.slots.map fun x => (x.slot, x.installed)).map Prod.fst ↔ ∃ x ∈ c.slots, x.slot = i := by
    rw [List.map_map, List.mem_map]
    rfl
  rw [(commitEnded_of_staying nodup to_).slot, doneRaised_slot, contentsTaken_slot nodup, time]
  by_cases named : ∃ x ∈ c.slots, x.slot = i
  · rw [if_pos (mem.mpr named), if_pos named]
    rfl
  · rw [if_neg (mt mem.mp named), if_neg named, named_eq_none fun x mem same => named ⟨x, mem, same⟩]
    rfl

theorem commitEnded_queue (nodup : (c.slots.map fun x => x.slot).Nodup) (to_ : ∀ l ∈ c.lifecycle, l.1 ≠ .retired) (p : Port) :
    (s.commitEnded c).queue p = List.foldl arrive (s.queue p)
      (⟨.batchDone, none, none, some s.renewal.sequence, s.time.t⟩ ::
        c.slots.flatMap fun x => (x.contents (s.slot x.slot)).conditionsFor x.slot s.time.t x.installed p) := by
  have raised : (s.doneRaised c).time.t = s.time.t ∧
      (s.doneRaised c).queue p = arrive (s.queue p) ⟨.batchDone, none, none, some s.renewal.sequence, s.time.t⟩ := by
    obtain ⟨v, eq⟩ := doneRaised_eq s c
    rw [eq]
    exact ⟨rfl, by cases p <;> rfl⟩
  rw [(commitEnded_of_staying nodup to_).queue, raised.1, raised.2, List.flatMap_map, List.foldl_cons]
  congr 1
  refine flatMap_eq_of_mem fun x mem => ?_
  rw [doneRaised_slot, contentsTaken_slot nodup, named_of_mem nodup mem]
  rfl

theorem rolled_slot (nodup : (c.slots.map fun x => x.slot).Nodup) (i : Fin 24) : (s.rolled c).slot i = s.placed c i :=
  contentsTaken_slot nodup s i

theorem rolledForward_of_staying (life : c.lifecycle.elim s.supply.lifeCycle Prod.fst ≠ .retired) :
    s.rolledForward c = (s.rolled c).startedTimed := by
  obtain ⟨v, rolled⟩ := rolled_eq s c
  obtain ⟨-, eq⟩ | ⟨retired, -⟩ := retirement_cases (s := s.rolled c) (by rw [rolled]; exact nofun)
  · rw [rolledForward_eq, eq]
  · rw [rolled] at retired
    exact absurd retired life

theorem rolledForward_slot (nodup : (c.slots.map fun x => x.slot).Nodup)
    (life : c.lifecycle.elim s.supply.lifeCycle Prod.fst ≠ .retired) (i : Fin 24) :
    (s.rolledForward c).slot i = (s.placed c i).evaluated s.time.t := by
  obtain ⟨v, rolled⟩ := rolled_eq s c
  have staying : (s.rolled c).supply.lifeCycle ≠ .retired ∧ (s.rolled c).time.t = s.time.t := by
    rw [rolled]
    exact ⟨life, rfl⟩
  rw [rolledForward_of_staying life, (startedTimed_finished _).slot, if_neg staying.1, rolled_slot nodup, staying.2]

theorem rolledForward_queue (nodup : (c.slots.map fun x => x.slot).Nodup)
    (life : c.lifecycle.elim s.supply.lifeCycle Prod.fst ≠ .retired) (p : Port) :
    (s.rolledForward c).queue p = List.foldl arrive (s.queue p) (⟨.restarted, none, none, none, s.time.t⟩ ::
      (List.finRange 24).flatMap fun i => (s.placed c i).conditionsFor i s.time.t true p) := by
  obtain ⟨v, rolled⟩ := rolled_eq s c
  have slot := rolled_slot (s := s) nodup
  rw [rolledForward_of_staying life, (startedTimed_finished _).queue, State.startupDemands]
  simp only [slot]
  have queue : (s.rolled c).queue p = s.queue p := by rw [rolled]; cases p <;> rfl
  have time : (s.rolled c).time.t = s.time.t := by rw [rolled]
  have staying : (s.rolled c).supply.lifeCycle ≠ .retired := by rw [rolled]; exact life
  have idle : (s.rolled c).renewal.state ≠ .armed := by rw [rolled]; exact nofun
  rw [queue, time, if_neg staying, if_neg idle, List.append_nil]

theorem rolledForward_head (life : c.lifecycle.elim s.supply.lifeCycle Prod.fst ≠ .retired) {p : Port} (empty : s.queue p = []) :
    ((s.rolledForward c).queue p).head? = some ⟨.restarted, none, none, none, s.time.t⟩ := by
  obtain ⟨v, rolled⟩ := rolled_eq s c
  have queue : (s.rolled c).queue p = s.queue p := by rw [rolled]; cases p <;> rfl
  have time : (s.rolled c).time.t = s.time.t := by rw [rolled]
  rw [rolledForward_of_staying life, (startedTimed_finished _).queue, startupDemands_head _ _ (queue.trans empty), time]

theorem endState_ne_flush (p : Supply) : p.endState ≠ .flush := by
  unfold Supply.endState
  split
  · exact nofun
  · split <;> exact nofun

theorem rolledForward_run (life : c.lifecycle.elim s.supply.lifeCycle Prod.fst ≠ .retired) :
    (s.rolledForward c).supply.run = s.supply.endState := by
  obtain ⟨v, rolled⟩ := rolled_eq s c
  obtain ⟨⟨v, m, n, k, q, p, same⟩, -⟩ := startedTimed_finished (s.rolled c)
  rw [rolledForward_of_staying life, same, rolled]
  rfl

end

/-! ## The event of COMMIT_END (R115, R144) -/

section
variable {c : Commit} {q : Nat} {rest : List Entry}

/-- What the commit does at its COMMIT_END. -/
def State.concluded (s : State) (c : Commit) : State := if c.rolling then s.rolledForward c else s.commitEnded c

theorem concluded_endsCommit (nodup : (c.slots.map fun x => x.slot).Nodup) : s.EndsCommit c (s.concluded c) := by
  unfold State.concluded
  split
  · exact (rolledForward_endsCommit s c).1
  · exact (commitEnded_endsCommit nodup).1

/-- A named slot once the commit is over, outside RETIRED (R115, R116). -/
theorem concluded_named (nodup : (c.slots.map fun x => x.slot).Nodup) (life : c.lifecycle.elim s.supply.lifeCycle Prod.fst ≠ .retired)
    {x : NewSlot} (mem : x ∈ c.slots) : (s.concluded c).slot x.slot = (x.contents (s.slot x.slot)).evaluated s.time.t := by
  rw [← placed_of_mem nodup mem]
  unfold State.concluded
  split
  · exact rolledForward_slot nodup life x.slot
  · rw [commitEnded_slot nodup (not_retiring life), if_pos ⟨x, mem, rfl⟩]

theorem concluded_pin (nodup : (c.slots.map fun x => x.slot).Nodup) (life : c.lifecycle.elim s.supply.lifeCycle Prod.fst ≠ .retired)
    (i : Fin 24) : ((s.concluded c).slot i).pin = (s.slot i).pin := by
  have placed : (s.placed c i).pin = (s.slot i).pin := by
    rw [State.placed]
    cases c.named i <;> rfl
  unfold State.concluded
  split
  · rw [rolledForward_slot nodup life]
    exact placed
  · rw [commitEnded_slot nodup (not_retiring life)]
    split
    · exact placed
    · rfl

/-- Where no requester waits, the completion of COMMIT_END concludes the commit, and in FLUSH the part may be drained. -/
theorem execWriteComplete_commitEnd (queue : s.journal.queue = ⟨.append (.commitEnd q), .commitEnd⟩ :: rest)
    (copy : s.journal.toCopy = none) (place : s.journal.place = []) (commit : s.commit = some c)
    (nodup : (c.slots.map fun x => x.slot).Nodup) (waits : s.NoneWaits) :
    ∃ r, exec .writeComplete s = .next (((s.recorded (.commitEnd q) true rest).concluded c).setRun r) ∧
      (((s.recorded (.commitEnd q) true rest).concluded c).supply.run ≠ .flush →
        r = ((s.recorded (.commitEnd q) true rest).concluded c).supply.run) := by
  have acts : State.requesterActs (s.recorded (.commitEnd q) true rest) ⟨.append (.commitEnd q), .commitEnd⟩ =
      (s.recorded (.commitEnd q) true rest).concluded c := by
    unfold State.requesterActs
    dsimp only
    rw [show (s.recorded (.commitEnd q) true rest).commit = some c from commit]
    rfl
  have ends := concluded_endsCommit (s := s.recorded (.commitEnd q) true rest) nodup
  obtain ⟨r, settle, keeps⟩ := settle_of_grant_none (ends.waits (waits.of_same rfl rfl)).grant_none
  have copyDue : s.copyDue ⟨.append (.commitEnd q), .commitEnd⟩ = false := by simp [State.copyDue, copy]
  refine ⟨r, ?_, keeps⟩
  rw [execWriteComplete_of_place_nil queue copyDue place, ← settle, ← acts]
  rfl

end

/-! ## The retiring commit (R116, R175, R176) -/

/-- In RUN the item that the erase stands at is handed over at the end of the queue, in FLUSH it stays in hand (R176). -/
theorem eraseHanded_of_running (running : s.supply.run = .run ∨ s.supply.run = .flush) (room : s.journal.queue.length < 8) :
    s.eraseHanded = { s with journal := { s.journal with
      queue := s.journal.queue ++ if s.supply.run = .run then s.eraseEntries else [] } } := by
  rw [eraseHanded_of_room room]
  rcases running with run | run <;> simp [State.eraseMayHand, run]

/-- To RETIRED BATCH_DONE is the one demand, every pin goes and the erase goes on from its first item (R116, R175, R176). -/
theorem commitEnded_retired {c : Commit} {code : Option Nat} (to_ : c.lifecycle = some (.retired, code))
    (running : s.supply.run = .run ∨ s.supply.run = .flush) (room : s.journal.queue.length < 8) :
    (∀ i, ((s.commitEnded c).slot i).pin = none) ∧
    (s.commitEnded c).queueM = arrive s.queueM ⟨.batchDone, none, none, some s.renewal.sequence, s.time.t⟩ ∧
    (s.commitEnded c).queueL = arrive s.queueL ⟨.batchDone, none, none, some s.renewal.sequence, s.time.t⟩ ∧
    (s.commitEnded c).EraseStandsFrom 0 ∧
    (s.commitEnded c).journal.queue = s.journal.queue ++ (if s.supply.run = .run then (s.commitEnded c).eraseEntries else []) := by
  obtain ⟨v, done⟩ := doneRaised_eq s c
  obtain ⟨w, eq, pins⟩ := commitEnded_of_retiring (s := s) to_
  obtain ⟨e, stands, on⟩ := eraseOn_stands (s := State.setErase { s.doneRaised c with slots := w } (.at 0 0)) (i := 0) (item := 0)
    97 rfl (by decide)
  have handed : s.commitEnded c = (State.setErase { s.doneRaised c with slots := w } e).eraseHanded := eq.trans on
  replace stands : (State.setErase { s.doneRaised c with slots := w } e).EraseStandsFrom 0 := stands
  rw [done] at handed stands
  rw [eraseHanded_of_running (by exact running) (by exact room)] at handed
  rw [handed]
  exact ⟨pins, rfl, rfl, stands, rfl⟩

/-- At COMMIT_END the engine is free and no port waits, with the hold granted or in a roll-forward none (R64, R110, R155). -/
theorem noneWaits_of_end (free : s.EngineIdle ∨ (s.engine = none ∧ s.arbiter = { s.arbiter with
    resumed := [], hold := .granted, waitM := false, waitL := false, checking := none })) : s.NoneWaits := by
  rcases free with ⟨engine, resumed, hold, waitM, waitL, checking⟩ | ⟨engine, arbiter⟩
  · exact ⟨engine, resumed, .inl hold, waitM, waitL, checking⟩
  · exact ⟨engine, by rw [arbiter], .inr (by rw [arbiter]), by rw [arbiter], by rw [arbiter], by rw [arbiter]⟩

/-! ## The items of the erase (R176) -/

theorem eraseItem_bank (s : State) (i : Fin 24) (k : Fin 3) :
    s.eraseItem i ⟨k.val, by omega⟩ = if s.journal.bank i k = none then none else some (.bankErase i k) := by
  unfold State.eraseItem
  rw [dif_pos k.isLt]
  cases s.journal.bank i k <;> simp

theorem eraseItem_slot (s : State) (i : Fin 24) :
    s.eraseItem i 3 = if s.slotErased i then none else some (.append (.slot i none (erasedMeta i))) := rfl

theorem eraseItem_eq_some {i : Fin 24} {item : Fin 4} {w : Write} (due : s.eraseItem i item = some w) :
    (∃ k : Fin 3, item = ⟨k.val, by omega⟩ ∧ w = .bankErase i k) ∨ (item = 3 ∧ w = .append (.slot i none (erasedMeta i))) := by
  by_cases bank : item.val < 3
  · refine .inl ⟨⟨item.val, bank⟩, rfl, ?_⟩
    have held := eraseItem_bank s i ⟨item.val, bank⟩
    rw [due] at held
    split at held
    · exact absurd held nofun
    · exact Option.some.inj held
  · obtain rfl : item = 3 := Fin.ext (show item.val = 3 by omega)
    refine .inr ⟨rfl, ?_⟩
    rw [eraseItem_slot] at due
    split at due
    · exact absurd due nofun
    · exact (Option.some.inj due).symm

/-- The SLOT record of a slot is still due where the newest one names a cell or a role, and for slot 0 where there is none (R176). -/
theorem slotErased_eq_false (s : State) (i : Fin 24) : s.slotErased i = false ↔ (s.journal.baseSlot i).elim (i = 0) fun m =>
    m.current.isSome = true ∨ m.prior.isSome = true ∨ (i ≠ 0 ∧ m.role ≠ .empty) := by
  unfold State.slotErased
  cases s.journal.baseSlot i with
  | none => simp
  | some m =>
    dsimp only [Option.elim_some]
    rw [← Option.not_isSome, ← Option.not_isSome]
    cases m.current.isSome <;> cases m.prior.isSome <;> simp

/-! ## The completion of an item (R144, R176) -/

/-- In a table in canonical form nothing is at an erased key. -/
theorem cellGet_cellErase_same {α : Type} (k : Nat) {l : List (Nat × α)} (rises : rising l = true) : cellGet k (cellErase k l) = none := by
  have erased {j : Nat} {l : List (Nat × α)} (rises : risingFrom j l = true) : cellGet k (cellErase k l) = none := by
    induction l generalizing j with
    | nil => rfl
    | cons e l ih =>
      simp only [risingFrom, Bool.and_eq_true, decide_eq_true_eq] at rises
      unfold cellErase
      split
      next here => exact cellGet_of_risingFrom _ rises.2 (Nat.le_of_eq here)
      next other =>
        rw [cellGet, if_neg other]
        exact ih rises.2
  cases l with
  | nil => rfl
  | cons e l =>
    unfold cellErase
    split
    next here => exact cellGet_of_risingFrom _ rises (Nat.le_of_eq here)
    next other =>
      rw [cellGet, if_neg other]
      exact erased rises

theorem eraseBank_bank {j : Journal} (canonical : j.Canonical) (i : Fin 24) (k : Fin 3) : (j.eraseBank i k).bank i k = none :=
  cellGet_cellErase_same _ canonical.2.2.1

/-- The part with the write of an item in the store (R144). -/
def State.itemStored (s : State) (w : Write) (rest : List Entry) : State :=
  { s with journal := { s.storeEffect ⟨w, .erase⟩ with queue := rest, failures := 0 } }

/-- An item of the erase that completes is passed: a SLOT record removes its slot's cells, and the erase goes on from the next item
(R176). -/
theorem eraseDone_go {i : Fin 24} {item : Fin 4} (at_ : s.supply.erase = .at i item) : ∃ v e,
    (State.setErase { s with slots := v } e).EraseStandsFrom (itemNumber i item + 1) ∧
    s.eraseDone.eraseGo = (State.setErase { s with slots := v } e).eraseHanded ∧
    ∀ j, State.slot { s with slots := v } j = if j = i ∧ item = 3 then (s.slot i).erased i else s.slot j := by
  have done : ∃ v, s.eraseDone = State.setErase { s with slots := v } (Erase.after i item) ∧
      ∀ j, State.slot { s with slots := v } j = if j = i ∧ item = 3 then (s.slot i).erased i else s.slot j := by
    unfold State.eraseDone
    rw [at_]
    dsimp only
    by_cases record : item = 3
    · rw [if_pos record]
      refine ⟨_, rfl, fun j => ?_⟩
      by_cases here : j = i
      · rw [if_pos ⟨here, record⟩, here]
        exact s.slot_setSlot i _
      · rw [if_neg fun both => here both.1]
        exact s.slot_setSlot_ne (Ne.symm here) _
    · rw [if_neg record]
      exact ⟨s.slots, rfl, fun j => (if_neg fun both => record both.2).symm⟩
  obtain ⟨v, done, slot⟩ := done
  rw [done]
  rcases after_cases i item with ⟨k, m, next, number⟩ | ⟨last, number⟩
  · obtain ⟨e, stands, on⟩ := eraseOn_stands (s := State.setErase { s with slots := v } (Erase.after i item)) (i := k) (item := m)
      97 next (by omega)
    rw [number] at stands
    exact ⟨v, e, stands, on, slot⟩
  · refine ⟨v, .complete, fun k m beyond => absurd (itemNumber_le k m) (by omega), ?_, slot⟩
    rw [last]
    exact eraseOn_of_complete rfl 97

/-- What every completion of an item leaves, in RUN, in FLUSH and at the end of start-up (R144, R171, R176). -/
def State.ItemPassed (s : State) (u t : State) : Prop := ∃ r a b m n c x y q p, t = { u with
  supply := { u.supply with run := r }
  queueM := m, queueL := n
  time := { s.time with checkpoint := c, tickTimer := x, beatTimer := y }
  portM := { s.portM with address := a }, portL := { s.portL with address := b }
  journal := { u.journal with queue := q, place := p } }

theorem requesterActs_erase (w : Write) : s.requesterActs ⟨w, .erase⟩ =
    if s.eraseDone.eraseGo.supply.run = .starting ∧ s.eraseDone.eraseGo.eraseBusy = false then s.eraseDone.eraseGo.finish
    else s.eraseDone.eraseGo := rfl

theorem eraseHanded_supply (s : State) : s.eraseHanded.supply = s.supply := by
  obtain ⟨q, p, eq⟩ := eraseHanded_eq s
  rw [eq]

/-- Where the erase stands, the item it has in hand has an entry unless it is complete. -/
theorem eraseEntries_of_stands {n : Nat} (stands : s.EraseStandsFrom n) (going : s.supply.erase ≠ .complete) :
    ∃ w, s.eraseEntries = [⟨w, .erase⟩] := by
  unfold State.EraseStandsFrom at stands
  unfold State.eraseEntries
  rcases erase : s.supply.erase with _ | ⟨i, item⟩ | _
  · rw [erase] at stands
    exact absurd stands id
  · rw [erase] at stands
    obtain ⟨w, due⟩ := Option.isSome_iff_exists.mp stands.2.1
    dsimp only
    rw [due]
    exact ⟨w, rfl⟩
  · exact absurd erase going

theorem eraseEntries_of_complete (complete : s.supply.erase = .complete) : s.eraseEntries = [] := by
  rw [State.eraseEntries, complete]

/-- In STARTING an item is handed over only with the warning released and the fault mark clear (R170, R177). -/
theorem eraseMayHand_of_starting (starting : s.supply.run = .starting) :
    s.eraseMayHand = true ↔ s.supply.warning = false ∧ s.supply.faultMark = false := by
  simp [State.eraseMayHand, starting]

/-- In stage 5 the erase goes on while it has an item to hand over, and start-up goes on where it has none (R169, R177). -/
theorem starting_goes_on {n : Nat} (starting : s.supply.run = .starting) (room : s.journal.queue.length < 8)
    (place : s.journal.place = []) (alone : ∀ e ∈ s.journal.queue, e.requester ≠ .erase) (stands : s.EraseStandsFrom n) :
    s.eraseHanded.eraseBusy = true ∧ s.supply.warning = false ∧ s.supply.faultMark = false ∧ s.supply.erase ≠ .complete ∧
      s.eraseHanded = { s with journal := { s.journal with queue := s.journal.queue ++ s.eraseEntries } } ∨
    s.eraseHanded.eraseBusy = false ∧ (¬ (s.supply.warning = false ∧ s.supply.faultMark = false) ∨ s.supply.erase = .complete) ∧
      s.eraseHanded = s := by
  have quiet : s.eraseBusy = false := by
    rw [State.eraseBusy, place, List.append_nil]
    simpa using alone
  rw [eraseHanded_of_room room]
  by_cases may : s.eraseMayHand = true
  · obtain ⟨warning, mark⟩ := (eraseMayHand_of_starting starting).mp may
    rw [if_pos may]
    by_cases complete : s.supply.erase = .complete
    · refine .inr ?_
      rw [eraseEntries_of_complete complete, List.append_nil]
      exact ⟨quiet, .inr complete, rfl⟩
    · obtain ⟨w, entries⟩ := eraseEntries_of_stands stands complete
      refine .inl ⟨?_, warning, mark, complete, rfl⟩
      simp [State.eraseBusy, entries]
  · rw [if_neg may, List.append_nil]
    exact .inr ⟨quiet, .inl (mt (eraseMayHand_of_starting starting).mpr may), rfl⟩

theorem grant_none_of_busy_or_idle {t : State} (free : s.engine.isSome = true ∨ s.EngineIdle) (engine : t.engine = s.engine)
    (arbiter : t.arbiter = s.arbiter) : t.grant = none := by
  rcases free with busy | idle
  · exact grant_none_of_engine (by rwa [engine])
  · unfold State.EngineIdle at idle
    rw [← engine, ← arbiter] at idle
    exact State.EngineIdle.grant_none (s := t) idle

section
variable {w : Write} {i : Fin 24} {item : Fin 4} {rest : List Entry} {u : State}

/-- What the completion of an item leaves once the erase stands at `u`, by run state (R169, R171, R176, R177). -/
structure State.ErasesOn (s u t : State) (rest : List Entry) : Prop where
  passed : s.ItemPassed u t
  running : s.supply.run ≠ .starting →
    t.journal.queue = rest ++ (if s.supply.run = .run then u.eraseEntries else []) ∧
    t.time = s.time ∧ t.portM = s.portM ∧ t.portL = s.portL ∧ t.queueM = s.queueM ∧ t.queueL = s.queueL
  hands : s.supply.run = .starting → s.supply.warning = false ∧ s.supply.faultMark = false → u.supply.erase ≠ .complete →
    t.supply.run = .starting ∧ t.journal.queue = rest ++ u.eraseEntries ∧ t.queueM = s.queueM ∧ t.queueL = s.queueL
  ends : s.supply.run = .starting → ¬ (s.supply.warning = false ∧ s.supply.faultMark = false) ∨ u.supply.erase = .complete →
    t.supply.run = s.supply.endState ∧
    (s.StartDue → t.journal.queue = rest ++ [⟨.append (.time (min (s.time.t + 64) LIMIT)), .time⟩]) ∧
    (¬ s.StartDue → t.journal.queue = rest) ∧
    ∀ p, t.queue p = arrive (s.queue p) ⟨.restarted, none, none, none, s.time.t⟩

/-- In RUN and FLUSH the erase goes on with the controller alone (R176). -/
theorem erasesOn_of_running {j : Journal} {v : Vector Slot 24} {e : Erase}
    (free : s.engine.isSome = true ∨ s.EngineIdle) (running : s.supply.run = .run ∨ s.supply.run = .flush)
    (standing : u = State.setErase { s with journal := j, slots := v } e) (queue : j.queue = rest) (room : rest.length < 8) :
    s.ErasesOn u u.eraseHanded.settle rest := by
  have still : u.eraseHanded.engine = s.engine ∧ u.eraseHanded.arbiter = s.arbiter := by
    obtain ⟨q, p, eq⟩ := eraseHanded_eq u
    rw [eq, standing]
    exact ⟨rfl, rfl⟩
  obtain ⟨r, settled, -⟩ := settle_of_grant_none (grant_none_of_busy_or_idle free still.1 still.2)
  subst standing
  rw [settled, eraseHanded_of_running (by exact running) (by rwa [← queue] at room)]
  have starting : s.supply.run ≠ .starting := by rcases running with run | run <;> simp [run]
  refine ⟨?_, fun _ => ?_, fun not => absurd not starting, fun not => absurd not starting⟩
  · exact ⟨r, s.portM.address, s.portL.address, s.queueM, s.queueL, s.time.checkpoint, s.time.tickTimer, s.time.beatTimer, _, j.place, rfl⟩
  · rw [← queue]
    exact ⟨rfl, rfl, rfl, rfl, rfl, rfl⟩

/-- In stage 5 of start-up the erase goes on with the controller, or start-up goes on to its end (R169, R177). -/
theorem erasesOn_of_starting {j : Journal} {v : Vector Slot 24} {e : Erase} {n : Nat}
    (free : s.engine.isSome = true ∨ s.EngineIdle) (starting : s.supply.run = .starting) (retired : s.supply.lifeCycle = .retired)
    (idle : s.renewal.state = .idle) (standing : u = State.setErase { s with journal := j, slots := v } e) (stands : u.EraseStandsFrom n)
    (queue : j.queue = rest) (place : j.place = []) (room : rest.length < 8) (alone : ∀ x ∈ rest, x.requester ≠ .erase) :
    s.ErasesOn u (if u.eraseHanded.eraseBusy = false then u.eraseHanded.finish else u.eraseHanded).settle rest := by
  have at_ : u.supply.run = .starting ∧ u.journal.queue = rest ∧ u.journal.place = [] ∧ u.engine = s.engine ∧ u.arbiter = s.arbiter := by
    rw [standing]
    exact ⟨starting, queue, place, rfl, rfl⟩
  obtain ⟨run, queued, placed, engine, arbiter⟩ := at_
  have marks : u.supply.warning = s.supply.warning ∧ u.supply.faultMark = s.supply.faultMark := by
    rw [standing]
    exact ⟨rfl, rfl⟩
  have away : ¬ s.supply.run ≠ .starting := not_not_intro starting
  rcases starting_goes_on run (by rwa [queued]) placed (by rwa [queued]) stands with
    ⟨busy, warning, mark, going, handed⟩ | ⟨ended, reason, handed⟩
  · rw [if_neg (by simp [busy]), handed]
    obtain ⟨r, settled, keeps⟩ := settle_of_grant_none (grant_none_of_busy_or_idle free
      (t := { u with journal := { u.journal with queue := u.journal.queue ++ u.eraseEntries } }) engine arbiter)
    obtain rfl : r = .starting := (keeps (by rw [show ∀ j, ({ u with journal := j } : State).supply = u.supply from fun _ => rfl, run]; exact nofun)).trans run
    rw [settled, queued]
    rw [marks.1] at warning
    rw [marks.2] at mark
    refine ⟨?_, fun not => absurd not away, fun _ _ _ => ?_, fun _ ended => absurd ended ?_⟩
    · subst standing
      exact ⟨.starting, s.portM.address, s.portL.address, s.queueM, s.queueL, s.time.checkpoint, s.time.tickTimer, s.time.beatTimer, _,
        j.place, rfl⟩
    · subst standing
      exact ⟨rfl, rfl, rfl, rfl⟩
    · exact fun ended => ended.elim (fun not => not ⟨warning, mark⟩) going
  · have armed : u.renewal.state ≠ .armed := by
      rw [standing]
      exact fun armed => absurd (idle.symm.trans armed) nofun
    rw [handed] at ended ⊢
    rw [if_pos ended, finish_of_not_armed armed]
    obtain ⟨⟨v', m, n', c, q, p, same⟩, slot, demands, due, notDue⟩ := startedTimed_finished u
    have rested : u.startedTimed.engine = u.engine ∧ u.startedTimed.arbiter = u.arbiter ∧ u.startedTimed.supply.run = u.supply.endState := by
      rw [same]
      exact ⟨rfl, rfl, rfl⟩
    obtain ⟨r, settled, keeps⟩ := settle_of_grant_none
      (grant_none_of_busy_or_idle free (rested.1.trans engine) (rested.2.1.trans arbiter))
    obtain rfl : r = u.supply.endState := (keeps (by rw [rested.2.2]; exact endState_ne_flush _)).trans rested.2.2
    rw [settled]
    refine ⟨?_, fun not => absurd not away, fun _ hands going => absurd reason ?_, fun _ _ => ⟨?_, ?_, ?_, fun p => ?_⟩⟩
    · have kept : v' = u.slots := Vector.ext fun i bound => by
        have at_ := slot ⟨i, bound⟩
        rw [if_pos (by rw [standing]; exact retired), same] at at_
        exact at_
      have flag : u.startupFlag = u.renewal.activation := if_neg fun both => armed both.2
      rw [same, kept, flag]
      subst standing
      exact ⟨_, _, _, m, n', c, .running, .running, q, p, rfl⟩
    · rw [marks.1, marks.2]
      exact fun reason => reason.elim (fun not => not hands) going
    · subst standing
      rfl
    · intro starts
      have starts' : u.StartDue := by subst standing; exact starts
      refine ((due starts').2 (by rwa [queued])).1.trans ?_
      rw [queued]
      subst standing
      rfl
    · intro starts
      have starts' : ¬ u.StartDue := by subst standing; exact starts
      exact (congrArg Journal.queue (notDue starts').2).trans queued
    · refine Eq.trans (b := u.startedTimed.queue p) (by cases p <;> rfl) ((demands p).trans ?_)
      rw [State.startupDemands, if_pos (by rw [standing]; exact retired)]
      subst standing
      cases p <;> rfl

end

/-- The completion of an item of the erase (R144, R176, R177). -/
theorem execWriteComplete_erase {w : Write} {i : Fin 24} {item : Fin 4} {rest : List Entry}
    (queue : s.journal.queue = ⟨w, .erase⟩ :: rest) (copy : s.copyDue ⟨w, .erase⟩ = false) (place : s.journal.place = [])
    (room : rest.length < 8) (at_ : s.supply.erase = .at i item) (free : s.engine.isSome = true ∨ s.EngineIdle)
    (runs : s.supply.run = .run ∨ s.supply.run = .flush ∨ (s.supply.run = .starting ∧ s.supply.lifeCycle = .retired ∧
      s.renewal.state = .idle ∧ ∀ e ∈ rest, e.requester ≠ .erase)) :
    ∃ v e t, exec .writeComplete s = .next t ∧ s.ErasesOn (State.setErase { s.itemStored w rest with slots := v } e) t rest ∧
      (State.setErase { s.itemStored w rest with slots := v } e).EraseStandsFrom (itemNumber i item + 1) ∧
      ∀ j, State.slot { s with slots := v } j = if j = i ∧ item = 3 then (s.slot i).erased i else s.slot j := by
  obtain ⟨v, e, stands, go, slot⟩ := eraseDone_go (s := s.itemStored w rest) at_
  have placed : (s.itemStored w rest).journal.place = [] := (storeEffect_place s _).trans place
  have run : (State.setErase { s.itemStored w rest with slots := v } e).eraseHanded.supply.run = s.supply.run := by
    rw [eraseHanded_supply]
    rfl
  refine ⟨v, e, _, execWriteComplete_of_place_nil queue copy place, ?_, stands, slot⟩
  rw [show ({ s with journal := { s.storeEffect ⟨w, .erase⟩ with queue := rest, failures := 0 } } : State) = s.itemStored w rest from rfl,
    requesterActs_erase, go, run]
  rcases runs with running | flush | ⟨starting, retired, idle, alone⟩
  · rw [if_neg (by simp [running])]
    exact erasesOn_of_running free (.inl running) rfl rfl room
  · rw [if_neg (by simp [flush])]
    exact erasesOn_of_running free (.inr flush) rfl rfl room
  · simp only [starting, true_and]
    exact erasesOn_of_starting free starting retired idle rfl stands rfl placed room alone

end

/-- Settles O52: the contents by `concluded_named`, the demands by `commitEnded_queue` and `rolledForward_queue`, the erase by
`eraseOn_stands`. -/
theorem commitEndMakesTheBatchVisible : Obligations.CommitEndMakesTheBatchVisible := by
  unfold Obligations.CommitEndMakesTheBatchVisible
  refine ⟨fun s q c rest queue copy place commit nodup free => ?_, ?_, ?_⟩
  · obtain ⟨r, completes, keeps⟩ := execWriteComplete_commitEnd queue copy place commit nodup (noneWaits_of_end free)
    generalize stored : s.recorded (.commitEnd q) true rest = b at completes keeps
    have same : b.slot = s.slot ∧ b.time = s.time ∧ b.supply = s.supply ∧ b.renewal = s.renewal := by
      rw [← stored]
      exact ⟨rfl, rfl, rfl, rfl⟩
    have asked (p : Port) : b.queue p = s.queue p := by
      rw [← stored]
      cases p <;> rfl
    obtain ⟨slots, time, supply, engineState⟩ := same
    have held : ({ s.journal.appended (.commitEnd q) true with queue := rest, failures := 0 } : Journal) = b.journal := by
      rw [← stored]
      rfl
    have ends := concluded_endsCommit (s := b) nodup
    have life : (b.concluded c).supply.lifeCycle = c.lifecycle.elim s.supply.lifeCycle Prod.fst := by rw [ends.lifeCycle, supply]
    obtain ⟨due, ticks, beats, timed⟩ := ends.time
    obtain ⟨idle, header, applied, activation, last⟩ := ends.renewal
    obtain ⟨q', p', n', journal⟩ := ends.held
    rw [time] at timed
    have staying (stays : (b.concluded c).supply.lifeCycle ≠ .retired) : c.lifecycle.elim b.supply.lifeCycle Prod.fst ≠ .retired := by
      rwa [← ends.lifeCycle]
    have named (stays : (b.concluded c).supply.lifeCycle ≠ .retired) {x : NewSlot} (mem : x ∈ c.slots) :
        (b.concluded c).slot x.slot = (x.contents (s.slot x.slot)).evaluated s.time.t := by
      rw [concluded_named nodup (staying stays) mem, slots, time]
    refine ⟨(b.concluded c).setRun r, completes, idle, header, applied, activation, last.trans (by rw [engineState]), ends.commit,
      ends.engine.trans ?_, ?_, ?_, life.trans ?_, ?_, ?_, ?_, fun stays => ⟨fun i unnamed stage => ?_, fun i => ?_, fun x mem => ?_⟩,
      fun stage => ?_, ?_, fun code stage to_ running room => ?_, fun stage starting stays => ⟨?_, fun empty => ?_, ?_⟩⟩
    · rw [← stored]
      exact (noneWaits_of_end free).engine
    · rw [show ((b.concluded c).setRun r).journal = (b.concluded c).journal from rfl, journal, ← held]
      rfl
    · exact (s.journal.appended_stands true _).of_sameHeld (.trans ⟨rest, _, 0, held.symm⟩ ends.held)
    · cases c.lifecycle <;> rfl
    · rw [show ((b.concluded c).setRun r).time = (b.concluded c).time from rfl, timed]
      rcases c.lifecycle with _ | ⟨l, _ | code⟩ <;> rfl
    · exact (congrArg TimeBase.t timed :)
    · exact (congrArg TimeBase.tb timed :)
    · rw [State.concluded, if_neg (by simp [stage])]
      refine (commitEnded_slot nodup (not_retiring (staying stays)) i).trans ?_
      rw [if_neg fun ⟨x, mem, same⟩ => unnamed x mem same, slots]
    · exact (concluded_pin nodup (staying stays) i).trans (by rw [slots])
    · have slot : ((b.concluded c).setRun r).slot x.slot = (x.contents (s.slot x.slot)).evaluated s.time.t := named stays mem
      rw [slot]
      exact ⟨rfl, rfl, rfl, rfl, rfl, contents_evaluated_current x _ _, rfl⟩
    · have ended : b.concluded c = b.commitEnded c := if_neg (by simp [stage])
      obtain ⟨-, clock, portM, portL, hold, result⟩ := commitEnded_endsCommit (s := b) nodup
      rw [ended]
      refine ⟨result.trans (by rw [engineState]), hold, ?_, portM.trans ?_, portL.trans ?_⟩
      · change (b.commitEnded c).time = { s.time with code := (b.commitEnded c).time.code }
        rw [clock, time]
      · rw [← stored]
        rfl
      · rw [← stored]
        rfl
    · intro cell now
      have cells (x : NewSlot) : (x.contents (s.slot x.slot)).current = cell x := by
        rfl
      have nows (i : Fin 24) : (s.placed c i).current = now i := by
        unfold State.placed Commit.named
        dsimp only [now]
        cases found : c.slots.find? fun x => decide (x.slot = i) with
        | none => rfl
        | some x =>
          obtain rfl : x.slot = i := of_decide_eq_true (List.find?_some (p := fun x : NewSlot => decide (x.slot = i)) found)
          exact cells x
      clear_value cell now
      have rolledSlot (stays : (b.concluded c).supply.lifeCycle ≠ .retired) (stage : c.rolling = true) (i : Fin 24) :
          ((b.concluded c).setRun r).slot i = (s.placed c i).evaluated s.time.t := by
        refine Eq.trans (b := (b.rolledForward c).slot i) (by rw [State.concluded, if_pos stage]; rfl) ?_
        rw [rolledForward_slot nodup (staying stays), time, State.placed, State.placed, slots]
      refine ⟨fun stays x mem => ?_, fun stays stage p => ?_, fun stays stage starting => ⟨fun i => ?_, fun p => ?_⟩⟩
      · refine (congrArg Slot.current (named stays mem)).trans ?_
        rw [← cells x]
        rfl
      · have ended : b.concluded c = b.commitEnded c := if_neg (by simp [stage])
        rw [ended] at stays ⊢
        refine (commitEnded_queue nodup (not_retiring (staying (by rwa [ended]))) p).trans ?_
        rw [asked, engineState, time, slots]
        congr 2
        refine flatMap_eq_of_mem fun x _ => ?_
        rw [← cells x, Slot.conditionsFor]
        cases (x.contents (s.slot x.slot)).current <;> rfl
      · rw [rolledSlot stays stage, ← nows]
        rfl
      · have rolls : b.concluded c = b.rolledForward c := if_pos stage
        refine Eq.trans (b := (b.rolledForward c).queue p) (by rw [← rolls]; cases p <;> rfl) ?_
        rw [rolledForward_queue nodup (staying stays), asked, time]
        congr 2
        refine flatMap_eq_of_mem fun i _ => ?_
        rw [rolledSlot stays stage, ← nows, State.placed, State.placed, slots, Slot.conditionsFor]
        generalize (c.named i).elim (s.slot i) (fun x => x.contents (s.slot i)) = o
        cases o.current <;> rfl
    · have ended : b.concluded c = b.commitEnded c := if_neg (by simp [stage])
      rw [ended]
      have running' : b.supply.run = .run ∨ b.supply.run = .flush := by rwa [supply]
      have room' : b.journal.queue.length < 8 := by rwa [← held]
      have queued : b.journal.queue = rest := by rw [← held]
      obtain ⟨pins, queueM, queueL, stands, items⟩ := commitEnded_retired (s := b) to_ running' room'
      rw [queued, supply] at items
      rw [engineState, time] at queueM queueL
      exact ⟨pins, queueM.trans (congrArg (arrive · _) (asked .M)), queueL.trans (congrArg (arrive · _) (asked .L)), stands, items⟩
    · have rolls : b.concluded c = b.rolledForward c := if_pos stage
      rw [rolls]
      exact (rolledForward_endsCommit b c).2
    · have rolls : b.concluded c = b.rolledForward c := if_pos stage
      refine Eq.trans (b := ((b.rolledForward c).queue .M).head?) (by rw [← rolls]; rfl) ?_
      rw [rolledForward_head (staying stays) ((asked .M).trans empty), time]
    · have running : (b.concluded c).supply.run = b.supply.endState := by
        rw [State.concluded, if_pos stage, rolledForward_run (staying stays)]
      refine (keeps (by rw [running]; exact endState_ne_flush _)).trans (running.trans ?_)
      rw [supply, Supply.endState]
  · intro s w i item rest queue copy due place room at_ free canonical runs
    have copied : s.copyDue ⟨w, .erase⟩ = false := by
      rcases eraseItem_eq_some due with ⟨k, number, rfl⟩ | ⟨rfl, rfl⟩
      · rfl
      · simp [State.copyDue, copy.resolve_right (fun not => not rfl)]
    obtain ⟨v, e, t, completes, ⟨⟨r, a, b, m, n, c, x, y, q, p, passed⟩, running, hands, ends⟩, stands, slot⟩ :=
      execWriteComplete_erase queue copied place room at_ free runs
    refine ⟨t, completes, ?_, ?_, fun starting => ?_, fun j other => ?_, fun record => ?_, fun k number => ?_, ?_, fun b append => ?_, fun bank => ?_⟩
    · rw [passed]
      exact stands
    · intro not
      obtain ⟨items, rest'⟩ := running not
      refine ⟨?_, rest'⟩
      rw [items, passed]
      rfl
    · intro handing starts
      have erase : t.supply.erase = e := by rw [passed]; rfl
      refine ⟨fun may going => ?_, fun ending => ?_⟩
      · obtain ⟨run, items, queues⟩ := hands starting may (by rwa [erase] at going)
        refine ⟨run, ?_, queues⟩
        rw [items, passed]
        rfl
      · obtain ⟨run, due, notDue, demands⟩ := ends starting (ending.imp_right fun complete => by rwa [erase] at complete)
        refine ⟨run.trans rfl, ?_, demands⟩
        have start : starts ↔ s.StartDue := by
          dsimp only [starts]
          rw [run]
          rfl
        split
        next yes => exact due (start.mp yes)
        next not => exact (notDue (mt start.mpr not)).trans (List.append_nil rest).symm
    · have at_ := slot j
      rw [if_neg fun both => other.elim (fun ne => ne both.1) fun ne => ne both.2] at at_
      rw [passed]
      exact at_
    · have erased : t.slot i = (s.slot i).erased i := by
        have at_ := slot i
        rw [if_pos ⟨rfl, record⟩] at at_
        rw [passed]
        exact at_
      rw [erased, Slot.erased]
      refine ⟨?_, ?_, ?_, fun other => ?_, fun zero => ?_⟩
      · split <;> rfl
      · split <;> rfl
      · split <;> rfl
      · rw [if_neg other]
        exact ⟨rfl, rfl⟩
      · rw [if_pos zero]
        exact ⟨rfl, rfl⟩
    · obtain ⟨k', same, rfl⟩ | ⟨rfl, -⟩ := eraseItem_eq_some due
      · obtain rfl : k = k' := Fin.ext (by rw [← number, same])
        rw [passed]
        exact eraseBank_bank canonical i k
      · exact absurd number (show ¬ 3 = k.val by omega)
    · rw [passed]
      rfl
    · subst append
      rw [passed]
      exact (s.journal.appended_stands true b).of_sameHeld ⟨q, p, 0, rfl⟩
    · obtain ⟨k', -, rfl⟩ | ⟨record, -⟩ := eraseItem_eq_some due
      · rw [passed]
        exact ⟨rfl, rfl, rfl, rfl⟩
      · exact absurd record bank
  · refine fun s i => ⟨eraseItem_bank s i, ?_⟩
    intro due
    have still : s.slotErased i = false ↔ due := by
      rw [slotErased_eq_false]
      dsimp only [due]
      cases s.journal.baseSlot i <;> rfl
    clear_value due
    refine ⟨fun not => ?_, fun yes other => ?_, fun yes zero => ?_⟩
    · rw [eraseItem_slot, if_pos (Bool.not_eq_false _ ▸ mt still.mp not)]
    · rw [eraseItem_slot, still.mpr yes, erasedMeta, if_neg other]
      rfl
    · subst zero
      rw [eraseItem_slot, still.mpr yes]
      rfl

end Sys2Proof.Machine
end

section
/-! PROOFS. Start-up from its scan (R152 to R157, R169): the restored table, time base and batch, and the fault mark. -/

namespace Sys2Proof.Machine

/-! ## What the scan finds (R141, R152, R153) -/

section
variable {newest : BitVec 8} {recs : List Placed}

/-- A walk for the newest record that has found one ends with one. -/
theorem foldl_newest_isSome (is : Body → Bool) (best : Placed) : (recs.foldl (fun best e =>
    if is e.2.body then
      match best with
      | none => some e
      | some b => if rank newest b < rank newest e then some e else best
    else best) (some best)).isSome = true := by
  induction recs generalizing best with
  | nil => rfl
  | cons e rest ih =>
    rw [List.foldl_cons]
    dsimp only
    split
    · split
      · exact ih e
      · exact ih best
    · exact ih best

theorem latest_true_eq_none (none : latest newest (fun _ => true) recs = none) : recs = [] := by
  cases recs with
  | nil => rfl
  | cons e rest =>
    have found : (latest newest (fun _ => true) (e :: rest)).isSome = true := foldl_newest_isSome (recs := rest) (fun _ => true) e
    rw [none] at found
    exact absurd found nofun

end

section
variable {c : Scan} {b : Body}

theorem base_key {k : RecordKey} (base : c.base k = some b) : b.key = k := by
  obtain ⟨e, found, rfl⟩ := Option.map_eq_some_iff.mp base
  have picked := (latest_mem e found).2
  simp only [Bool.and_eq_true, decide_eq_true_eq] at picked
  exact picked.1

theorem base_lifecycle (base : c.base .lifecycle = some b) : ∃ l code o, b = .lifecycle l code o := by
  have key := base_key base
  cases b with
  | lifecycle l code o => exact ⟨l, code, o, rfl⟩
  | _ => exact absurd key nofun

theorem base_time (base : c.base .time = some b) : ∃ tb, b = .time tb := by
  have key := base_key base
  cases b with
  | time tb => exact ⟨tb, rfl⟩
  | _ => exact absurd key nofun

theorem base_slot {i : Fin 24} (base : c.base (.slot i) = some b) : ∃ o m, b = .slot i o m := by
  have key := base_key base
  cases b with
  | slot j o m =>
    obtain rfl : j = i := RecordKey.slot.inj key
    exact ⟨o, m, rfl⟩
  | _ => exact absurd key nofun

theorem slot_of_base {i : Fin 24} {o : Option Nat} {m : SlotMeta} (base : c.base (.slot i) = some (.slot i o m)) :
    c.slot i =
      { role := m.role, userMap := m.userMap, notifyMap := m.notifyMap, policy := m.policy, pin := none
        current := m.current.map (c.current i m), next := none, prior := m.prior.map (c.prior i m), wait := none } := by
  rw [Scan.slot, base]

theorem slot_of_no_base {i : Fin 24} (base : c.base (.slot i) = none) : c.slot i = Slot.blank := by
  rw [Scan.slot, base]

/-- The tick period code at stage 2 (R153, R173). -/
def Scan.code (c : Scan) : Nat := match c.base .lifecycle with | some (.lifecycle _ code _) => code | _ => 0

theorem code_of_base {l : LifeCycle} {code : Nat} {o : Option Nat} (base : c.base .lifecycle = some (.lifecycle l code o)) :
    c.code = code := by rw [Scan.code, base]

end

theorem rebuildLifecycle_eq (s : State) (c : Scan) : s.rebuildLifecycle c = { s with
    supply := { s.supply with lifeCycle := c.lifeCycle, faultMark := s.supply.faultMark || (c.base .lifecycle).isNone }
    time := { s.time with code := c.code } } := by
  unfold State.rebuildLifecycle Scan.lifeCycle Scan.code
  cases base : c.base .lifecycle with
  | none => simp [State.markIf]
  | some b =>
    obtain ⟨l, code, o, rfl⟩ := base_lifecycle base
    simp

theorem markIf_eq (s : State) (bad : Bool) :
    s.markIf bad = { s with supply := { s.supply with faultMark := s.supply.faultMark || bad } } := by
  cases bad <;> simp [State.markIf]

/-! ## Stages 2 and 3 (R129, R153, R154) -/

/-- A bank of the table that holds no valid image outside RETIRED (R154). -/
def Scan.BankInvalid (c : Scan) (j : Journal) : Prop :=
  c.lifeCycle ≠ .retired ∧ ∃ i, (∃ k ∈ (c.slot i).current, j.validImage i k.bank k.generation = false) ∨
    ∃ k ∈ (c.slot i).prior, j.validImage i k.bank k.generation = false

/-- What stages 2 and 3 of start-up leave of `s` (R129, R153, R154). -/
structure State.Restored (s : State) (c : Scan) (r : State) : Prop where
  same : ∃ v m, r = { s with
    slots := v, time := { s.time with t := r.time.t, tb := r.time.t, checkpoint := none, deferred := false, code := c.code }
    supply := { s.supply with lifeCycle := c.lifeCycle, faultMark := m } }
  slot : ∀ i, r.slot i = c.slot i
  mark : r.supply.faultMark = true ↔
    s.supply.faultMark = true ∨ c.base .lifecycle = none ∨ c.BankInvalid s.journal ∨ c.base .time = none
  time : ∀ tb, c.base .time = some (.time tb) → r.time.t = tb
  fallback : c.base .time = none → (r.time.t = 0 ∨ c.Carries r.time.t) ∧ ∀ v, c.Carries v → v ≤ r.time.t

theorem banksInvalid_iff {s : State} {c : Scan} (life : s.supply.lifeCycle = c.lifeCycle) (slot : ∀ i, s.slot i = c.slot i) :
    (decide (s.supply.lifeCycle ≠ .retired) && !(List.finRange 24).all s.banksValid) = true ↔ c.BankInvalid s.journal := by
  have bank (i : Fin 24) : s.banksValid i = false ↔ (∃ k ∈ (c.slot i).current, s.journal.validImage i k.bank k.generation = false) ∨
      ∃ k ∈ (c.slot i).prior, s.journal.validImage i k.bank k.generation = false := by
    rw [State.banksValid, slot, Bool.and_eq_false_iff, Option.all_eq_false, Option.all_eq_false]
    simp
  rw [Scan.BankInvalid, ← life, Bool.and_eq_true, decide_eq_true_eq, Bool.not_eq_true', List.all_eq_false]
  simp only [Bool.not_eq_true, bank, List.mem_finRange, true_and]

/-- The table, the life-cycle state and the tick period code of stage 2, before the banks are checked (R153). -/
def State.tabled (s : State) (c : Scan) (v : Vector Slot 24) : State :=
  { s with
    slots := v, time := { s.time with code := c.code }
    supply := { s.supply with lifeCycle := c.lifeCycle, faultMark := s.supply.faultMark || (c.base .lifecycle).isNone } }

theorem rebuild_eq (s : State) (c : Scan) :
    (∃ v, s.rebuild c = { s with
      slots := v, time := { s.time with code := c.code }
      supply := { s.supply with lifeCycle := c.lifeCycle, faultMark := (s.rebuild c).supply.faultMark } }) ∧
    (∀ i, (s.rebuild c).slot i = c.slot i) ∧
    ((s.rebuild c).supply.faultMark = true ↔ s.supply.faultMark = true ∨ c.base .lifecycle = none ∨ c.BankInvalid s.journal) := by
  obtain ⟨v, slots, eq⟩ := mapSlots_eq (s.rebuildLifecycle c) fun i _ => c.slot i
  have invalid := banksInvalid_iff (s := s.tabled c v) (c := c) rfl slots
  have whole : s.rebuild c = (s.tabled c v).markIf
      (decide ((s.tabled c v).supply.lifeCycle ≠ .retired) && !(List.finRange 24).all (s.tabled c v).banksValid) := by
    rw [State.rebuild, eq, rebuildLifecycle_eq]
    rfl
  rw [whole, markIf_eq]
  refine ⟨⟨v, rfl⟩, slots, ?_⟩
  have mark : (s.tabled c v).supply.faultMark = true ↔ s.supply.faultMark = true ∨ c.base .lifecycle = none := by
    simp [State.tabled]
  rw [Bool.or_eq_true, mark, invalid, or_assoc]
  rfl

/-- The largest value of a list, or 0. -/
theorem foldl_max_spec (l : List Nat) (a : Nat) : (l.foldl max a = a ∨ l.foldl max a ∈ l) ∧ a ≤ l.foldl max a ∧ ∀ v ∈ l, v ≤ l.foldl max a := by
  induction l generalizing a with
  | nil => exact ⟨.inl rfl, Nat.le_refl _, nofun⟩
  | cons x l ih =>
    obtain ⟨found, above, all⟩ := ih (max a x)
    rw [List.foldl_cons]
    refine ⟨?_, by omega, fun v mem => ?_⟩
    · rcases found with first | later
      · rw [first]
        rcases Nat.le_total x a with less | more
        · exact .inl (by omega)
        · exact .inr (by simp [Nat.max_eq_right more])
      · exact .inr (List.mem_cons_of_mem x later)
    · rcases List.mem_cons.mp mem with rfl | later
      · omega
      · exact all v later

/-- The activation tick of a restored armed batch (R129). -/
def Scan.armTicks (c : Scan) : List Nat := (c.arm.bind fun a => a.2.1).toList

theorem mem_armTicks {c : Scan} {v : Nat} : v ∈ c.armTicks ↔ ∃ q o, c.arm = some (q, some v, o) := by
  unfold Scan.armTicks
  rcases c.arm with _ | ⟨q, tick, o⟩
  · simp
  · cases tick <;> simp [eq_comm]

theorem mem_ticks {k : Slot} {v : Nat} :
    v ∈ k.ticks ↔ (∃ x ∈ k.current, v = x.activation) ∨ ∃ x ∈ k.prior, v = x.activation ∨ v = x.graceEnd := by
  unfold Slot.ticks
  cases k.current <;> cases k.prior <;> simp

theorem fallbackTime_eq (s : State) (c : Scan) : s.fallbackTime c =
    ((((List.finRange 24).flatMap fun i => (s.slot i).ticks) ++ c.armTicks).filter fun v => decide (v ≤ LIMIT)).foldl max 0 := by
  unfold State.fallbackTime Scan.armTicks
  rcases c.arm with _ | ⟨q, tick, o⟩
  · rfl
  · cases tick <;> rfl

/-- The tick values that start-up applies without a TIME record (R129). -/
theorem fallbackTime_spec {s : State} {c : Scan} (slot : ∀ i, s.slot i = c.slot i) :
    (s.fallbackTime c = 0 ∨ c.Carries (s.fallbackTime c)) ∧ ∀ v, c.Carries v → v ≤ s.fallbackTime c := by
  have listed (v : Nat) : v ∈ ((((List.finRange 24).flatMap fun i => (s.slot i).ticks) ++ c.armTicks).filter fun v => decide (v ≤ LIMIT)) ↔
      c.Carries v := by
    simp only [List.mem_filter, List.mem_append, List.mem_flatMap, List.mem_finRange, true_and, slot, mem_ticks, mem_armTicks,
      decide_eq_true_eq, Scan.Carries, exists_or, or_assoc]
    exact and_comm
  have spec := foldl_max_spec ((((List.finRange 24).flatMap fun i => (s.slot i).ticks) ++ c.armTicks).filter fun v => decide (v ≤ LIMIT)) 0
  simp only [listed] at spec
  rw [fallbackTime_eq]
  exact ⟨spec.1, spec.2.2⟩

theorem restoreTime_of_base {s : State} {c : Scan} {tb : Nat} (base : c.base .time = some (.time tb)) :
    s.restoreTime c = { s with time := s.time.restored tb } := by rw [State.restoreTime, base]

theorem restoreTime_of_no_base {s : State} {c : Scan} (base : c.base .time = none) :
    s.restoreTime c = { s with
      time := s.time.restored (s.fallbackTime c), supply := { s.supply with faultMark := true } } := by
  rw [State.restoreTime, base]
  rfl

theorem restored_spec (s : State) (c : Scan) : s.Restored c ((s.rebuild c).restoreTime c) := by
  obtain ⟨⟨v, same⟩, slot, mark⟩ := rebuild_eq s c
  generalize s.rebuild c = t at *
  cases base : c.base .time with
  | none =>
    rw [restoreTime_of_no_base base]
    exact
      { same := ⟨v, true, by rw [same]; rfl⟩
        slot := slot
        mark := iff_of_true rfl (.inr (.inr (.inr base)))
        time := fun tb found => absurd (base.symm.trans found) nofun
        fallback := fun _ => fallbackTime_spec slot }
  | some b =>
    obtain ⟨tb, rfl⟩ := base_time base
    rw [restoreTime_of_base base]
    exact
      { same := ⟨v, t.supply.faultMark, by rw [same]; rfl⟩
        slot := slot
        mark := mark.trans (by simp [base])
        time := fun tb' found => by
          rw [base] at found
          exact Body.time.inj (Option.some.inj found)
        fallback := fun found => absurd (base.symm.trans found) nofun }

/-! ## Stage 4 (R155, R157) -/

theorem nextsValid_eq_false {s : State} {c : Scan} {q : Nat} : (!s.nextsValid (c.steps q)) = true ↔ s.NextInvalid c q := by
  rw [Bool.not_eq_true', State.nextsValid, List.all_eq_false, State.NextInvalid]
  refine exists_congr fun a => and_congr_right fun _ => ?_
  cases part : a.part with
  | install i g life budget define given bank =>
    constructor
    · exact fun invalid => ⟨i, g, life, budget, define, given, bank, rfl, by simpa using invalid⟩
    · rintro ⟨_, _, _, _, _, _, _, same, invalid⟩
      obtain ⟨rfl, rfl, -, -, -, -, rfl⟩ := AppliedPart.install.inj same
      simpa using invalid
  | _ => exact ⟨fun invalid => absurd rfl invalid, fun ⟨_, _, _, _, _, _, _, same, _⟩ => absurd same nofun⟩

/-- The NEXT cell that a step of a restored armed batch leaves a slot (R157). -/
def AppliedStep.nextOf (a : AppliedStep) (i : Fin 24) : Option Next :=
  match a.part with
  | .install j g life budget _ _ b => if j = i then some ⟨g, true, life, budget, b⟩ else none
  | _ => none

theorem restoreNext_spec (s : State) (a : AppliedStep) : (∃ v, s.restoreNext a = { s with slots := v }) ∧
    ∀ i, (s.restoreNext a).slot i = { s.slot i with next := (a.nextOf i).or (s.slot i).next } := by
  unfold State.restoreNext AppliedStep.nextOf
  cases a.part with
  | install j g life budget define given b =>
    refine ⟨⟨_, rfl⟩, fun i => ?_⟩
    by_cases here : j = i
    · subst here
      simp
    · simp [here, s.slot_setSlot_ne here]
  | _ => exact ⟨⟨s.slots, rfl⟩, fun i => rfl⟩

/-- The NEXT cells of a restored armed batch change the slots' NEXT cells alone: each takes that of its last INSTALL (R157). -/
theorem foldl_restoreNext (s : State) (steps : List AppliedStep) :
    (∃ v, steps.foldl State.restoreNext s = { s with slots := v }) ∧ ∀ i, (steps.foldl State.restoreNext s).slot i =
      { s.slot i with next := (steps.reverse.findSome? (AppliedStep.nextOf · i)).or (s.slot i).next } := by
  induction steps using list_induction_from_end with
  | nil => exact ⟨⟨s.slots, rfl⟩, fun i => rfl⟩
  | append_singleton steps a ih =>
    obtain ⟨⟨v, same⟩, slot⟩ := ih
    rw [List.foldl_append, List.foldl_cons, List.foldl_nil]
    generalize steps.foldl State.restoreNext s = t at *
    obtain ⟨⟨v', eq⟩, slot'⟩ := restoreNext_spec t a
    refine ⟨⟨v', by rw [eq, same]⟩, fun i => ?_⟩
    rw [slot', slot, List.reverse_append, List.reverse_singleton, List.singleton_append, List.findSome?_cons]
    cases a.nextOf i <;> rfl

section
variable {c : Scan} {q tc : Nat} {tick : Option Nat} {outcomes : List StepOutcome}

theorem arm_of_opened {o : Nat × Nat} (opened : c.opened = some o) : c.arm = none := by
  rw [Scan.arm, opened]
  rfl

/-- The renewal engine of a restored armed batch (R99, R157). -/
def Renewal.restored (q : Nat) (tick : Option Nat) (outcomes : List StepOutcome) (steps : List AppliedStep) : Renewal :=
  { Renewal.idle with
    state := .armed, header := some (.restored q), applied := steps, activationTick := tick, result := ⟨q, .armed, outcomes⟩ }

/-- The renewal engine that start-up restores (R99, R155, R157). -/
def Scan.batch (c : Scan) : Renewal :=
  c.opened.elim (c.arm.elim .idle fun a => .restored a.1 a.2.1 a.2.2 (c.steps a.1)) fun o => .opened o.1 (c.steps o.1)

/-- The NEXT cell that start-up restores in a slot (R157). -/
def Scan.next (c : Scan) (i : Fin 24) : Option Next := c.arm.bind fun a => (c.steps a.1).reverse.findSome? (AppliedStep.nextOf · i)

theorem slot_next (c : Scan) (i : Fin 24) : (c.slot i).next = none := by
  cases base : c.base (.slot i) with
  | none => rw [slot_of_no_base base]; rfl
  | some b =>
    obtain ⟨o, m, rfl⟩ := base_slot base
    rw [slot_of_base base]

/-- The sequence whose NEXT images are checked (R155, R157). -/
def Scan.restores (c : Scan) : Option Nat := (c.opened.map Prod.fst).or (c.arm.map Prod.fst)

theorem marked_iff {s : State} : s.Marked c ↔ (c.base .lifecycle = none ∨ c.BankInvalid s.journal ∨ c.base .time = none) ∨
    ∃ q ∈ c.restores, s.NextInvalid c q := by
  have batch : ((∃ q tc, c.opened = some (q, tc) ∧ s.NextInvalid c q) ∨ ∃ q tick outcomes, c.arm = some (q, tick, outcomes) ∧ s.NextInvalid c q) ↔
      ∃ q ∈ c.restores, s.NextInvalid c q := by
    unfold Scan.restores
    cases opened : c.opened with
    | some o => simp [arm_of_opened opened, Prod.ext_iff]
    | none => cases c.arm <;> simp [Prod.ext_iff]
  rw [← batch, State.Marked, ← Scan.BankInvalid]
  constructor
  · rintro (life | time | banks | nexts)
    · exact .inl (.inl life)
    · exact .inl (.inr (.inr time))
    · exact .inl (.inr (.inl banks))
    · exact .inr nexts
  · rintro ((life | banks | time) | nexts)
    · exact .inl life
    · exact .inr (.inr (.inl banks))
    · exact .inr (.inl time)
    · exact .inr (.inr (.inr nexts))

/-- What start-up leaves of `s` at the end of stage 4, with no record of a commit computed (R99, R129, R153 to R157). -/
structure State.Booted (s : State) (c : Scan) (b : State) : Prop where
  same : ∃ v m, b = { s with
    slots := v, renewal := c.batch
    time := { s.time with t := b.time.t, tb := b.time.t, checkpoint := none, deferred := false, code := c.code }
    supply := { s.supply with lifeCycle := c.lifeCycle, faultMark := m } }
  slot : ∀ i, b.slot i = { c.slot i with next := c.next i }
  mark : b.supply.faultMark = true ↔ s.supply.faultMark = true ∨ s.Marked c
  time : ∀ tb, c.base .time = some (.time tb) → b.time.t = tb
  fallback : c.base .time = none → (b.time.t = 0 ∨ c.Carries b.time.t) ∧ ∀ v, c.Carries v → v ≤ b.time.t

/-- The restored state with a batch restored, and the fault mark set where a NEXT image of it is not valid, is booted. -/
theorem State.Restored.booted {s r : State} (restored : s.Restored c r) {v : Vector Slot 24} {invalid : Bool}
    (slot : ∀ i, State.slot { r with slots := v } i = { c.slot i with next := c.next i })
    (checked : invalid = true ↔ ∃ q ∈ c.restores, s.NextInvalid c q) :
    s.Booted c (State.markIf { r with slots := v, renewal := c.batch } invalid) := by
  obtain ⟨⟨w, m, same⟩, -, mark, time, fallback⟩ := restored
  rw [markIf_eq]
  refine ⟨⟨v, m || invalid, ?_⟩, slot, ?_, time, fallback⟩
  · conv => lhs; rw [same]
  · rw [Bool.or_eq_true, mark, checked, marked_iff, or_assoc]

theorem nextInvalid_congr {s r : State} (journal : r.journal = s.journal) : r.NextInvalid c q ↔ s.NextInvalid c q := by
  rw [State.NextInvalid, State.NextInvalid, journal]

/-- Stage 4 with an open commit: its contents are computed again unless the fault mark is set (R155). -/
theorem batches_of_opened {s r : State} (restored : s.Restored c r) (opened : c.opened = some (q, tc)) : ∃ b, s.Booted c b ∧
    r.batches c = if b.supply.faultMark then b else State.computeCommit { b with commit := some ⟨tc, true, .begin, [], none, []⟩ } := by
  have journal : r.journal = s.journal := by
    obtain ⟨v, m, same⟩ := restored.same
    rw [same]
  have booted := restored.booted (v := r.slots) (invalid := !r.nextsValid (c.steps q)) (fun i => ?_) ?_
  · refine ⟨_, booted, ?_⟩
    rw [State.batches, opened]
    dsimp only
    rw [show c.batch = .opened q (c.steps q) by rw [Scan.batch, opened]; rfl]
  · rw [Scan.next, arm_of_opened opened, Option.bind_none, ← slot_next c i]
    exact restored.slot i
  · rw [nextsValid_eq_false, nextInvalid_congr journal, Scan.restores, opened]
    simp

/-- Stage 4 with no open commit: a standing ARM record's batch is armed (R157). -/
theorem batches_of_not_opened {s r : State} (restored : s.Restored c r) (opened : c.opened = none) (idle : s.renewal = .idle) :
    ∃ b, s.Booted c b ∧ r.batches c = b := by
  obtain ⟨v, m, same⟩ := restored.same
  have journal : r.journal = s.journal := by rw [same]
  rw [State.batches, opened]
  dsimp only
  cases arm : c.arm with
  | none =>
    have booted := restored.booted (v := r.slots) (invalid := false) (fun i => ?_) ?_
    · refine ⟨_, booted, ?_⟩
      dsimp only
      rw [show c.batch = r.renewal by rw [Scan.batch, opened, arm, same]; exact idle.symm]
      rfl
    · rw [Scan.next, arm, Option.bind_none, ← slot_next c i]
      exact restored.slot i
    · simp [Scan.restores, opened, arm]
  | some a =>
    obtain ⟨q, tick, outcomes⟩ := a
    obtain ⟨⟨w, nexts⟩, slot⟩ := foldl_restoreNext { r with renewal := c.batch } (c.steps q)
    have booted := restored.booted (v := w) (invalid := !r.nextsValid (c.steps q)) (fun i => ?_) ?_
    · refine ⟨_, booted, ?_⟩
      dsimp only
      rw [State.restoreArmed, show ({ Renewal.idle with
        state := .armed, header := some (.restored q), applied := c.steps q, activationTick := tick,
        result := ⟨q, .armed, outcomes⟩ } : Renewal) = c.batch by rw [Scan.batch, opened, arm]; rfl]
      rw [nexts]
    · have at_ := slot i
      rw [nexts] at at_
      refine at_.trans ?_
      rw [show State.slot { r with renewal := c.batch } i = c.slot i from restored.slot i, slot_next, Option.or_none, Scan.next, arm]
      rfl
    · rw [nextsValid_eq_false, nextInvalid_congr journal, Scan.restores, opened, arm]
      simp

end

end Sys2Proof.Machine
end

section
/-! PROOFS. Start-up from stage 5 to the end of its event (R105, R169, R171, R177): what it waits on, and how it ends. -/

namespace Sys2Proof.Machine

/-- A part in stage 5 of start-up, before any of its writes (R168, R169). -/
structure State.Booting (b : State) : Prop where
  run : b.supply.run = .starting
  idle : b.EngineIdle
  queue : b.journal.queue = []
  place : b.journal.place = []
  request : ∀ p, (b.port p).request = none
  disarm : b.renewal.disarm = false
  flag : b.renewal.state = .armed → b.renewal.activation = false
  pin : ∀ i, (b.slot i).pin = none

/-- At the end of start-up an armed batch whose flag is set starts its commit in RUN (R105, R157, R171). -/
def State.StartsCommit (b : State) : Prop := b.renewal.state = .armed ∧ b.startupFlag = true ∧ b.supply.endState = .run

/-- The part in STARTING with an item of the erase in the queue, waiting on its write (R177). -/
def State.erasing (b : State) (e : Erase) : State :=
  { b.setErase e with journal := { b.journal with queue := (b.setErase e).eraseEntries } }

/-- The part at the end of start-up with its hold granted and its COMMIT_BEGIN handed over (R105, R110). -/
def State.committed (w : State) : State :=
  State.handed { w with
    arbiter := { w.arbiter with hold := .granted }
    renewal := { w.renewal with state := .committing }
    commit := some ⟨w.time.t, false, .begin, [], none, []⟩ } (.append (.commitBegin w.renewal.sequence w.time.t)) .commitBegin

section
variable {b : State}

/-- An armed batch whose flag is set at the end of start-up has no named slot pinned, so its commit begins at once (R105). -/
theorem finish_settles (booting : b.Booting) (starts : b.StartsCommit) :
    b.Finished b.startedTimed ∧ b.finish.settle = b.startedTimed.committed := by
  have finished := startedTimed_finished b
  refine ⟨finished, ?_⟩
  obtain ⟨armed, flag, ending⟩ := starts
  obtain ⟨⟨v, m, n, c, q, p, same⟩, slot, -⟩ := finished
  have unpinned : b.startedTimed.namedPinned = false := by
    rw [State.namedPinned, List.any_eq_false]
    intro i _
    have pin : (b.startedTimed.slot i).pin = none := by
      rw [slot]
      split
      · exact booting.pin i
      · exact booting.pin i
    simp [pin]
  have run : b.startedTimed.supply.run = .run := by rw [same]; exact ending
  have may : b.startedTimed.MayCommit := by
    refine ⟨?_, ?_, ?_, unpinned, run⟩
    · rw [same]; exact armed
    · rw [same]; exact booting.disarm
    · rw [same]; exact flag
  obtain ⟨free, resumed, hold, waitM, waitL, checking⟩ := booting.idle
  have hold' : b.startedTimed.arbiter.hold = .none := by rw [same]; exact hold
  rw [finish_eq, if_pos ending, commitStart_of_may may hold']
  have settles := settle_of_requested_hold (s := { b.startedTimed with arbiter := { b.startedTimed.arbiter with hold := .requested } })
    (by rw [same]; exact free) (by rw [same]; exact resumed) rfl (fun x => ?_) run
  · rw [settles, grantHold_of_run (s := { b.startedTimed with arbiter := { b.startedTimed.arbiter with hold := .requested } }) run]
    rfl
  · have none : (b.startedTimed.port x).request = none := by
      rw [same]
      cases x
      · exact booting.request .M
      · exact booting.request .L
    rw [State.inCharge, show State.port _ x = b.startedTimed.port x by cases x <;> rfl, none]

theorem finish_settles_of_not (booting : b.Booting) (not : ¬ b.StartsCommit) : b.finish.settle = b.startedTimed := by
  obtain ⟨⟨v, m, n, c, q, p, same⟩, -⟩ := startedTimed_finished b
  have finishes : b.finish = b.startedTimed := by
    rw [finish_eq]
    split
    next ending =>
      refine commitStart_of_may_not ?_
      rintro ⟨armed, -, flag, -, -⟩
      refine not ⟨?_, ?_, ending⟩
      · rw [same] at armed; exact armed
      · rw [same] at flag; exact flag
    · rfl
  rw [finishes]
  refine State.EngineIdle.settle ?_ ?_
  · rw [same]; exact booting.idle
  · rw [same]; exact endState_ne_flush _

/-- How stage 5 of start-up and the event it is part of end (R105, R169, R171, R177). -/
inductive State.Opens (b : State) : State → Prop
  | waits (e : Erase) (retired : b.supply.lifeCycle = .retired) (stands : (b.setErase e).EraseStandsFrom 0)
      (warning : b.supply.warning = false) (mark : b.supply.faultMark = false) (going : e ≠ .complete) : b.Opens (b.erasing e)
  | retired (e : Erase) (t : State) (retired : b.supply.lifeCycle = .retired) (stands : (b.setErase e).EraseStandsFrom 0)
      (ended : ¬ (b.supply.warning = false ∧ b.supply.faultMark = false) ∨ e = .complete) (finished : (b.setErase e).Finished t) : b.Opens t
  | ends (t : State) (life : b.supply.lifeCycle ≠ .retired) (not : ¬ b.StartsCommit) (finished : b.Finished t) : b.Opens t
  | commits (w : State) (life : b.supply.lifeCycle ≠ .retired) (starts : b.StartsCommit) (finished : b.Finished w) : b.Opens w.committed

theorem retirement_opens (booting : b.Booting) : b.Opens b.retirement.settle := by
  obtain ⟨life, eq⟩ | ⟨retired, e, stands, eq⟩ := retirement_walks b
  · rw [eq]
    by_cases starts : b.StartsCommit
    · obtain ⟨finished, settles⟩ := finish_settles booting starts
      rw [settles]
      exact .commits _ life starts finished
    · rw [finish_settles_of_not booting starts]
      exact .ends _ life starts (startedTimed_finished b)
  · rw [eq]
    have still : (b.setErase e).journal = b.journal := rfl
    have request (p : Port) : ((b.setErase e).port p).request = none := (by cases p <;> rfl : _ = (b.port p).request).trans (booting.request p)
    have booting' : (b.setErase e).Booting := ⟨booting.run, booting.idle, booting.queue, booting.place,
      request, booting.disarm, booting.flag, booting.pin⟩
    have goes := starting_goes_on booting'.run (by rw [booting'.queue]; exact Nat.zero_lt_succ 7) booting'.place
      (by rw [booting'.queue]; exact fun _ mem => absurd mem List.not_mem_nil) stands
    obtain ⟨busy, warning, mark, going, handed⟩ | ⟨free, reason, handed⟩ := goes
    · have waiting : (b.setErase e).eraseHanded = b.erasing e := by
        rw [handed, still, booting.queue, List.nil_append]
        rfl
      have rests : (b.erasing e).settle = b.erasing e := State.EngineIdle.settle booting.idle (by
        rw [show (b.erasing e).supply.run = b.supply.run from rfl, booting.run]
        exact nofun)
      rw [if_pos busy, waiting, rests]
      exact .waits e retired stands warning mark going
    · rw [handed] at free ⊢
      rw [if_neg (by simp [free])]
      have not : ¬ (b.setErase e).StartsCommit := by
        rintro ⟨armed, flag, -⟩
        rw [State.startupFlag, if_neg fun both => both.1 retired] at flag
        exact absurd ((booting.flag armed).symm.trans flag) nofun
      rw [finish_settles_of_not booting' not]
      exact .retired e _ retired stands reason (startedTimed_finished _)

end

end Sys2Proof.Machine
end

section
/-! PROOFS. Start-up by RSTN_RELEASE or SUPPLY_RETURN (R168 to R171): what it rebuilds from the ring, and how it ends. -/

namespace Sys2Proof.Machine

/-! ## The restored cells (R24, R32, R42, R186) -/

section
variable {c : Scan} {i : Fin 24}

/-- A cell that start-up has restored carries no mark and is LIVE or SPENT, before its conditions are evaluated (R24). -/
theorem restored_cell_fresh {k : Current} (current : (c.slot i).current = some k) :
    k.warned = false ∧ k.lifeWarned = false ∧ (k.state = .live ∨ k.state = .spent) := by
  cases base : c.base (.slot i) with
  | none =>
    rw [slot_of_no_base base] at current
    exact absurd current nofun
  | some b =>
    obtain ⟨o, m, rfl⟩ := base_slot base
    rw [slot_of_base base] at current
    obtain ⟨x, -, rfl⟩ := Option.map_eq_some_iff.mp current
    refine ⟨rfl, rfl, ?_⟩
    change (if (c.current i m x).counters.atLimit then CellState.spent else .live) = .live ∨
      (if (c.current i m x).counters.atLimit then CellState.spent else .live) = .spent
    split
    · exact .inr rfl
    · exact .inl rfl

/-- What the conditions of a fresh cell raise can be read off the cell that they leave (R186). -/
theorem demands_of_fresh {k : Current} (warned : k.warned = false) (lifeWarned : k.lifeWarned = false)
    (state : k.state = .live ∨ k.state = .spent) (policy : Option Policy) (t : Nat) :
    k.demands i policy t (true && decide (k.state = .spent)) =
      conditionDemands i (k.evaluated policy t).generation t (k.evaluated policy t).warned (decide ((k.evaluated policy t).state = .spent))
        (k.evaluated policy t).lifeWarned (decide ((k.evaluated policy t).state = .expired)) := by
  have spent : decide ((k.evaluated policy t).state = .spent) = (true && decide (k.state = .spent)) := by
    rcases state with state | state <;> simp [Current.evaluated, Current.expiryDue, state]
    split <;> simp
  have expired : decide ((k.evaluated policy t).state = .expired) = k.expiryDue t := by
    cases due : k.expiryDue t <;> rcases state with state | state <;> simp [Current.evaluated, due, state]
  rw [spent, expired]
  simp [Current.demands, Current.evaluated, warned, lifeWarned]

theorem restored_issue {m : SlotMeta} {k : CurrentMeta} (issue : m.role = .issue) : (c.current i m k).counters =
    .issue ((c.ceiling i k.generation).getD (k.limit.getD LIMIT)) ((c.ceiling i k.generation).getD (k.limit.getD LIMIT))
      (k.limit.getD LIMIT) := if_pos issue

theorem restored_floor {m : SlotMeta} {k : CurrentMeta} (other : m.role ≠ .issue) {y : Policy} (policy : m.policy = some y) :
    (c.current i m k).counters = .floor (min ((c.floor i k.generation).getD LIMIT + y.stride - 1) LIMIT)
      ((c.floor i k.generation).getD LIMIT) := by
  refine (if_neg other).trans ?_
  rw [policy]
  rfl

/-- The state of a restored cell at the end of start-up (R30, R32, R42, R132). -/
theorem restored_state (m : SlotMeta) (k : CurrentMeta) (t : Nat) :
    ((c.current i m k).evaluated m.policy t).state = if (c.current i m k).counters.atLimit then .spent
      else if ∃ l ∈ k.lifetime, k.activation + l ≤ t then .expired else .live := by
  have state : (c.current i m k).state = if (c.current i m k).counters.atLimit then .spent else .live := rfl
  have past : (c.current i m k).past t = true ↔ ∃ l ∈ k.lifetime, k.activation + l ≤ t := by
    rw [Current.past, Option.any_eq_true]
    simp [Scan.current]
  unfold Current.evaluated Current.expiryDue
  dsimp only
  rw [state]
  by_cases full : (c.current i m k).counters.atLimit = true
  · simp [full]
  · by_cases late : ∃ l ∈ k.lifetime, k.activation + l ≤ t
    · rw [if_neg full, if_neg full, if_pos late, past.mpr late]
      rfl
    · rw [if_neg full, if_neg full, if_neg late, eq_false_of_ne_true (mt past.mp late)]
      rfl

/-- COUNTER_LOW and LIFE_LOW of a restored cell are marked where they are due (R31, R41, R133, R186). -/
theorem restored_marks (m : SlotMeta) (k : CurrentMeta) (t : Nat) {y : Policy} (policy : m.policy = some y) :
    ((c.current i m k).evaluated m.policy t).warned =
      (decide (0 < y.warnStrides) && decide ((c.current i m k).counters.left ≤ y.warnStrides * y.stride)) ∧
    ((c.current i m k).evaluated m.policy t).lifeWarned =
      (decide (0 < y.lifeWarn) && decide (∃ l ∈ k.lifetime, k.activation + l ≤ t + y.lifeWarn)) := by
  have fresh : (c.current i m k).state ≠ .expired := by
    change (if (c.current i m k).counters.atLimit then CellState.spent else .live) ≠ .expired
    split <;> exact nofun
  rw [policy]
  constructor
  · simp [Current.evaluated, counterLowDue, Policy.low, Scan.current]
  · have marks : (c.current i m k).lifeWarned = false := rfl
    simp [Current.evaluated, Current.lifeWarningDue, Current.inLifeWarning, fresh, marks]
    rw [Bool.eq_iff_iff]
    simp only [Option.any_eq_true, Scan.current, Bool.and_eq_true, decide_eq_true_eq]
    exact ⟨fun ⟨l, life, warns, near⟩ => ⟨warns, l, life, near⟩, fun ⟨warns, l, life, near⟩ => ⟨l, life, warns, near⟩⟩

end

/-! ## The causes of start-up (R152, R168) -/

/-- The store that an abort has left, before the scan. -/
def storeLeft (ring : List (Nat × RingCell)) (banks : List (Nat × BankCell)) : Journal := ⟨ring, banks, [], [], 0, 0, [], 0⟩

/-- The part once its ring has been scanned, with the supply in range and RSTN high (R152, R168). -/
def State.powered (q : List Instr) (ring : List (Nat × RingCell)) (banks : List (Nat × BankCell)) (pins : Supply) (adrM adrL : Bool) :
    State :=
  { State.aborted q ring banks { pins with inRange := true, rstnLow := false, adrM := adrM, adrL := adrL } with
    journal := (storeLeft ring banks).scanned }

/-- Start-up from the end of its scan. -/
def State.begun (s : State) (c : Scan) : State :=
  let b := ((s.rebuild c).restoreTime c).batches c
  if b.commit.isSome then b else b.retirement

section
variable {q : List Instr} {ring : List (Nat × RingCell)} {banks : List (Nat × BankCell)} {pins : Supply} {adrM adrL : Bool}

theorem exec_cause {cause : Instr}
    (begins : (cause = .rstnRelease adrM adrL ∧ pins.rstnLow = true ∧ pins.inRange = true) ∨
      (cause = .supplyReturn adrM adrL ∧ pins.rstnLow = false ∧ pins.inRange = false)) :
    exec cause (State.aborted q ring banks pins) = .next ((State.powered q ring banks pins adrM adrL).begun (scanRing ring)).settle := by
  obtain ⟨mode, lifeCycle, warning, faultMark, erase, inRange, rstnLow, adrM', adrL'⟩ := pins
  rcases begins with ⟨rfl, rfl, rfl⟩ | ⟨rfl, rfl, rfl⟩
  · rfl
  · rfl

theorem scanned_store (j : Journal) : j.scanned.ring = j.ring ∧ j.scanned.banks = j.banks ∧ j.scanned.queue = [] ∧ j.scanned.place = [] := by
  unfold Journal.scanned
  dsimp only
  split <;> exact ⟨rfl, rfl, rfl, rfl⟩

/-- The write position and the lap count follow the newest valid record (R139, R152). -/
theorem scanned_position {j : Journal} {n : Nat} {r : Record}
    (newest : latest (scanRing j.ring).newest (fun _ => true) (scanRing j.ring).records = some (n, r)) :
    j.scanned.writePosition = nextPosition n ∧ j.scanned.lap = nextLap n r.lap := by
  unfold Journal.scanned
  dsimp only
  rw [newest]
  exact ⟨rfl, rfl⟩

theorem scanned_position_of_none {j : Journal}
    (newest : latest (scanRing j.ring).newest (fun _ => true) (scanRing j.ring).records = none) :
    j.scanned.writePosition = 0 ∧ j.scanned.lap = 0 := by
  unfold Journal.scanned
  dsimp only
  rw [newest]
  exact ⟨rfl, rfl⟩

/-- The live map holds what R141 makes live of the valid records (R141, R152). -/
theorem scanned_isLive (j : Journal) (n : Nat) : j.scanned.isLive n = true ↔ ∃ r, (scanRing j.ring).Live (n, r) := by
  have listed : n ∈ (((scanRing j.ring).records.filter fun e =>
      liveAtScan (scanRing j.ring).newest (scanRing j.ring).sequence (scanRing j.ring).records e).map Prod.fst) ↔
      ∃ r, (scanRing j.ring).Live (n, r) := by
    simp only [List.mem_map, List.mem_filter, Scan.live_iff]
    exact ⟨fun ⟨⟨m, r⟩, live, same⟩ => ⟨r, same ▸ live⟩, fun ⟨r, live⟩ => ⟨(n, r), live, rfl⟩⟩
  unfold Journal.isLive Journal.scanned
  dsimp only
  cases newest : latest (scanRing j.ring).newest (fun _ => true) (scanRing j.ring).records with
  | none =>
    have records := latest_true_eq_none newest
    simp [Scan.Live, records]
  | some e =>
    rw [← listed]
    simp

/-- The fault mark depends on the scan and the banks alone (R154, R155, R157). -/
theorem marked_congr {s t : State} (banks : t.journal.banks = s.journal.banks) (c : Scan) : t.Marked c ↔ s.Marked c := by
  simp only [State.Marked, State.NextInvalid, validImage_congr banks]

/-! ## The state at the end of stage 4, and the end of the event -/

section
variable {c : Scan} {b : State}

theorem batch_cases (c : Scan) : (c.batch.disarm = false) ∧ (c.batch.state = .armed → c.batch.activation = false) := by
  unfold Scan.batch
  cases c.opened with
  | some o => exact ⟨rfl, fun armed => absurd armed nofun⟩
  | none => cases c.arm <;> exact ⟨rfl, fun _ => rfl⟩

theorem powered_journal : (State.powered q ring banks pins adrM adrL).journal = (storeLeft ring banks).scanned := rfl

theorem booted_booting (booted : (State.powered q ring banks pins adrM adrL).Booted c b) : b.Booting := by
  obtain ⟨queue, place⟩ := (scanned_store (storeLeft ring banks)).2.2
  obtain ⟨v, m, same⟩ := booted.same
  have pin (i : Fin 24) : (b.slot i).pin = none := by
    rw [booted.slot]
    cases base : c.base (.slot i) with
    | none => rw [slot_of_no_base base]; rfl
    | some x =>
      obtain ⟨o, m, rfl⟩ := base_slot base
      rw [slot_of_base base]
  obtain ⟨disarm, flag⟩ := batch_cases c
  refine ⟨?_, ?_, ?_, ?_, fun p => ?_, ?_, ?_, pin⟩
  all_goals rw [same]
  · rfl
  · exact ⟨rfl, rfl, rfl, rfl, rfl, rfl⟩
  · exact queue
  · exact place
  · cases p <;> rfl
  · exact disarm
  · exact flag

/-- What start-up keeps from the end of stage 4 to the end of its event (R169, R171). -/
structure State.KeptFrom (b t : State) : Prop where
  pending : t.pending = b.pending
  held : b.journal.SameHeld t.journal
  supply : t.supply.inRange = b.supply.inRange ∧ t.supply.rstnLow = b.supply.rstnLow ∧ t.supply.lifeCycle = b.supply.lifeCycle
  engine : t.engine = b.engine
  time : t.time.t = b.time.t ∧ t.time.tb = b.time.tb ∧ t.time.code = b.time.code

theorem State.Finished.keptFrom {b t : State} {e : Erase} (finished : (b.setErase e).Finished t) : b.KeptFrom t := by
  obtain ⟨⟨v, m, n, c, q, p, same⟩, -⟩ := finished
  rw [same]
  exact ⟨rfl, ⟨q, p, b.journal.failures, rfl⟩, ⟨rfl, rfl, rfl⟩, rfl, ⟨rfl, rfl, rfl⟩⟩

theorem State.KeptFrom.committed {w : State} (kept : b.KeptFrom w) : b.KeptFrom w.committed := by
  obtain ⟨pending, held, supply, engine, time⟩ := kept
  unfold State.committed State.handed
  split
  · exact ⟨pending, held.trans ⟨_, w.journal.place, w.journal.failures, rfl⟩, supply, engine, time⟩
  · exact ⟨pending, held.trans ⟨w.journal.queue, _, w.journal.failures, rfl⟩, supply, engine, time⟩

theorem setErase_self (b : State) : b.setErase b.supply.erase = b := rfl

theorem State.Opens.keptFrom {t : State} (opens : b.Opens t) : b.KeptFrom t := by
  cases opens with
  | waits e => exact ⟨rfl, ⟨_, b.journal.place, b.journal.failures, rfl⟩, ⟨rfl, rfl, rfl⟩, rfl, ⟨rfl, rfl, rfl⟩⟩
  | retired e t _ _ _ finished => exact finished.keptFrom
  | ends t _ _ finished => exact State.Finished.keptFrom (e := b.supply.erase) finished
  | commits w _ _ finished => exact (State.Finished.keptFrom (e := b.supply.erase) finished).committed

/-- What the end of start-up shows of slots, demands and ports (R171, R186, R189). -/
structure State.ShowsEnd (b t : State) : Prop where
  slot : ∀ i, t.slot i = if b.supply.lifeCycle = .retired then b.slot i else (b.slot i).evaluated b.time.t
  queue : ∀ x, t.queue x = (b.startupDemands x).foldl arrive (b.queue x)
  portM : t.portM = { b.portM with address := portAddress b.supply.adrM }
  portL : t.portL = { b.portL with address := portAddress b.supply.adrL }

theorem State.Finished.showsEnd {b t : State} {e : Erase} (finished : (b.setErase e).Finished t) : b.ShowsEnd t := by
  obtain ⟨⟨v, m, n, c, q, p, same⟩, slot, queue, -⟩ := finished
  refine ⟨slot, fun x => (queue x).trans (by cases x <;> rfl), ?_, ?_⟩
  · rw [same]
    rfl
  · rw [same]
    rfl

theorem State.ShowsEnd.committed {w : State} (shows_ : b.ShowsEnd w) : b.ShowsEnd w.committed := by
  obtain ⟨slot, queue, portM, portL⟩ := shows_
  unfold State.committed State.handed
  split
  · exact ⟨slot, fun x => (by cases x <;> rfl : _ = w.queue x).trans (queue x), portM, portL⟩
  · exact ⟨slot, fun x => (by cases x <;> rfl : _ = w.queue x).trans (queue x), portM, portL⟩

theorem State.Opens.showsEnd {t : State} (opens : b.Opens t) (starting : b.supply.run = .starting) (ended : t.supply.run ≠ .starting) :
    b.ShowsEnd t := by
  cases opens with
  | waits e => exact absurd starting ended
  | retired e t _ _ _ finished => exact finished.showsEnd
  | ends t _ _ finished => exact State.Finished.showsEnd (e := b.supply.erase) finished
  | commits w _ _ finished => exact (State.Finished.showsEnd (e := b.supply.erase) finished).committed

end

/-! ## The roll-forward computed again (R155) -/

section
variable {c : Scan} {b : State} {sequence tc : Nat}

/-- The part that rolls an open commit forward, before it computes it (R155). -/
def State.rolling (b : State) (tc : Nat) : State := { b with commit := some ⟨tc, true, .begin, [], none, []⟩ }

theorem batch_of_opened (opened : c.opened = some (sequence, tc)) : c.batch = .opened sequence (c.steps sequence) := by
  rw [Scan.batch, opened]
  rfl

theorem booted_renewal {s : State} (booted : s.Booted c b) : b.renewal = c.batch := by
  obtain ⟨v, m, same⟩ := booted.same
  rw [same]

/-- A roll-forward hands its records over in STARTING (R114, R143, R155). -/
theorem rolling_computes (booting : b.Booting) (clear : b.supply.faultMark = false)
    (renewal : b.renewal = .opened sequence (c.steps sequence)) :
    let x := b.compute tc sequence (c.steps sequence)
    let t := (b.rolling tc).computeCommit
    (x.2.2 ≠ [] → t.commit = some ⟨tc, true, .records, x.1, x.2.1, x.2.2.drop 9⟩ ∧
      t.journal.queue = (entriesOf .commitRecord x.2.2).take 8 ∧ t.journal.place = ((entriesOf .commitRecord x.2.2).drop 8).take 1) ∧
    (x.2.2 = [] → t.commit = some ⟨tc, true, .ending, x.1, x.2.1, []⟩ ∧
      t.journal.queue = [⟨.append (.commitEnd sequence), .commitEnd⟩]) := by
  intro x t
  have computed : (b.rolling tc).compute tc (b.rolling tc).renewal.sequence (b.rolling tc).renewal.applied = x := by
    rw [show (b.rolling tc).renewal = b.renewal from rfl, renewal]
    exact compute_congr (s := b) (u := b.rolling tc) rfl rfl tc sequence (c.steps sequence)
  have takes : b.TakesWrites := ⟨by rw [booting.run]; exact nofun, fun marked => absurd (clear.symm.trans marked.2) nofun⟩
  have empty : b.journal.queue.length = 0 := by rw [booting.queue]; rfl
  clear_value x
  constructor
  · intro records
    have hands : t = _ := computeCommit_of_records (s := b.rolling tc) (c := ⟨tc, true, .begin, [], none, []⟩) rfl computed records
    rw [handRecords_queued (by exact takes) (by exact Nat.le_trans (Nat.le_of_eq empty) (Nat.zero_le 8))] at hands
    rw [hands]
    simp [State.queued, State.setRest, State.rolling, booting.queue, booting.place]
  · intro empty_
    have hands : t = _ := computeCommit_of_no_record (s := b.rolling tc) (c := ⟨tc, true, .begin, [], none, []⟩) rfl computed empty_
    rw [handEnd_of_room (by exact takes) (by exact Nat.lt_of_le_of_lt (Nat.le_of_eq empty) (Nat.zero_lt_succ 7))] at hands
    rw [hands]
    simp [State.rolling, booting.queue, renewal]
    rfl

theorem rolling_commit (booting : b.Booting) (clear : b.supply.faultMark = false)
    (renewal : b.renewal = .opened sequence (c.steps sequence)) : (b.rolling tc).computeCommit.commit.isSome = true := by
  obtain ⟨some_, none⟩ := rolling_computes (tc := tc) booting clear renewal
  by_cases records : (b.compute tc sequence (c.steps sequence)).2.2 = []
  · rw [(none records).1]
    rfl
  · rw [(some_ records).1]
    rfl

/-- What start-up makes of the state at the end of stage 4 (R155, R169). -/
theorem begun_settles {s : State} (idle : s.renewal = .idle) (commit : s.commit = none)
    (boots : ∀ b, s.Booted c b → b.Booting) (clear : s.supply.faultMark = false) :
    ∃ b, s.Booted c b ∧ ((s.Marked c ∨ c.opened = none) → b.Opens (s.begun c).settle) ∧
      ∀ sequence tc, ¬ s.Marked c → c.opened = some (sequence, tc) → (s.begun c).settle = (b.rolling tc).computeCommit := by
  have restored := restored_spec s c
  have unmarked {b : State} (booted : s.Booted c b) : b.supply.faultMark = true ↔ s.Marked c := by
    rw [booted.mark, clear]
    simp
  have committed {b : State} (booted : s.Booted c b) : b.commit = none := by
    obtain ⟨v, m, same⟩ := booted.same
    rw [same]
    exact commit
  unfold State.begun
  dsimp only
  cases opened : c.opened with
  | none =>
    obtain ⟨b, booted, eq⟩ := batches_of_not_opened restored opened idle
    refine ⟨b, booted, fun _ => ?_, fun _ _ _ found => absurd found nofun⟩
    rw [eq, committed booted]
    exact retirement_opens (boots b booted)
  | some o =>
    obtain ⟨sequence, tc⟩ := o
    obtain ⟨b, booted, eq⟩ := batches_of_opened restored opened
    refine ⟨b, booted, fun marked => ?_, fun sequence' tc' not found => ?_⟩
    · have mark : b.supply.faultMark = true := (unmarked booted).mpr (marked.resolve_right nofun)
      have whole : ((s.rebuild c).restoreTime c).batches c = b := eq.trans (if_pos mark)
      rw [whole, committed booted]
      exact retirement_opens (boots b booted)
    · obtain ⟨rfl, rfl⟩ := Prod.mk.inj (Option.some.inj found)
      have mark : b.supply.faultMark = false := eq_false_of_ne_true (mt (unmarked booted).mp not)
      have booting := boots b booted
      have going := rolling_commit (tc := tc) booting mark ((booted_renewal booted).trans (batch_of_opened opened))
      have whole : ((s.rebuild c).restoreTime c).batches c = (b.rolling tc).computeCommit := eq.trans (if_neg (by simp [mark]))
      rw [whole, if_pos going]
      obtain ⟨x, q, p, same⟩ := computeCommit_eq (b.rolling tc)
      refine State.EngineIdle.settle ?_ ?_
      · rw [same]
        exact booting.idle
      · rw [same]
        exact fun flush => absurd (booting.run.symm.trans flush) nofun

end

/-! ## What the end of start-up shows (R171, R186) -/

section
variable {c : Scan} {b t : State}

/-- What a slot's CURRENT has raised at the end of start-up, read off its marks and its state (R186). -/
def Slot.raisedAtEnd (o : Slot) (i : Fin 24) (t : Nat) (p : Port) : List Demand :=
  o.current.elim [] fun k => if o.notifyMap.has p then
    conditionDemands i k.generation t k.warned (decide (k.state = .spent)) k.lifeWarned (decide (k.state = .expired)) else []

/-- BATCH_ARMED of a batch that start-up has restored (R157, R186). -/
def Scan.armedDemands (c : Scan) (t : Nat) : List Demand := c.arm.elim [] fun a => [⟨.batchArmed, none, none, some a.1, t⟩]

theorem batch_armed (c : Scan) : (c.batch.state = .armed ↔ c.arm.isSome = true) ∧ ∀ a ∈ c.arm, c.batch.sequence = a.1 := by
  cases opened : c.opened with
  | some o =>
    rw [arm_of_opened opened, Scan.batch, opened]
    exact ⟨⟨fun armed => absurd armed nofun, nofun⟩, nofun⟩
  | none =>
    rw [Scan.batch, opened]
    cases c.arm with
    | none => exact ⟨⟨fun armed => absurd armed nofun, nofun⟩, nofun⟩
    | some a =>
      refine ⟨⟨fun _ => rfl, fun _ => rfl⟩, fun x mem => ?_⟩
      obtain rfl := Option.some.inj mem
      rfl

/-- The demands of the end of start-up, outside RETIRED (R186). -/
theorem startupDemands_booted {s : State} (booted : s.Booted c b) (life : b.supply.lifeCycle ≠ .retired) (p : Port) :
    b.startupDemands p = [⟨.restarted, none, none, none, b.time.t⟩] ++
      ((List.finRange 24).flatMap fun i => ((b.slot i).evaluated b.time.t).raisedAtEnd i b.time.t p) ++ c.armedDemands b.time.t := by
  have cells (i : Fin 24) : (b.slot i).conditionsFor i b.time.t true p = ((b.slot i).evaluated b.time.t).raisedAtEnd i b.time.t p := by
    rw [Slot.conditionsFor, Slot.raisedAtEnd, Slot.evaluated]
    cases current : (b.slot i).current with
    | none => rfl
    | some k =>
      obtain ⟨warned, lifeWarned, state⟩ := restored_cell_fresh (c := c) (i := i) (k := k) (by rw [← current, booted.slot])
      dsimp only [Option.map_some, Option.elim_some]
      rw [demands_of_fresh warned lifeWarned state]
  obtain ⟨armed, sequence⟩ := batch_armed c
  rw [State.startupDemands, if_neg life, booted_renewal booted, Scan.armedDemands]
  simp only [cells]
  cases arm : c.arm with
  | none =>
    rw [if_neg (by rw [armed, arm]; exact nofun)]
    rfl
  | some a =>
    rw [if_pos (by rw [armed, arm]; rfl), sequence a arm]
    rfl

end

end

/-! ## The end of start-up without the fault mark (R105, R126, R171) -/

/-- A demand that arrives is held, or QUEUE_FULL is (R180, R181). -/
theorem mem_arrive (q : List Demand) (d : Demand) : d ∈ arrive q d ∨ ∃ x ∈ arrive q d, x.kind = .queueFull := by
  unfold arrive
  split
  next full =>
    obtain ⟨x, mem, kind⟩ := List.any_eq_true.mp full
    exact .inr ⟨x, mem, of_decide_eq_true kind⟩
  · split
    next held =>
      obtain ⟨x, mem, same⟩ := List.any_eq_true.mp held
      refine .inl (List.mem_map.mpr ⟨x, mem, ?_⟩)
      rw [if_pos same]
      simp only [Demand.same, Bool.and_eq_true, decide_eq_true_eq] at same
      rw [← same.1, ← same.2]
    · split
      · exact .inl (by simp)
      · exact .inr ⟨_, List.mem_append_right _ (List.mem_singleton_self _), rfl⟩

section
variable {b w : State}

/-- Without the fault mark start-up ends in QUIESCENT with PFWN low and in RUN otherwise, with the checkpoint handed over (R126, R171). -/
theorem finished_quiet (finished : b.Finished w) (queue : b.journal.queue = []) (place : b.journal.place = [])
    (mark : b.supply.faultMark = false) (checkpoint : b.time.checkpoint = none) (bound : b.time.tb = b.time.t) :
    let due := b.supply.warning = false ∧ b.time.t < LIMIT
    w.supply.run = (if b.supply.warning then .quiescent else .run) ∧
    w.time.checkpoint = (if due then some (min (b.time.t + 64) LIMIT) else none) ∧
    w.journal.queue = (if due then [⟨.append (.time (min (b.time.t + 64) LIMIT)), .time⟩] else []) ∧ w.journal.place = [] := by
  have ending : b.supply.endState = if b.supply.warning then .quiescent else .run := by simp [Supply.endState, mark]
  have starts : b.StartDue ↔ b.supply.warning = false ∧ b.time.t < LIMIT := by
    rw [State.StartDue, ending, bound]
    cases b.supply.warning <;> simp [checkpoint]
  obtain ⟨⟨v, m, n, c, q, p, same⟩, -, -, due, notDue⟩ := finished
  refine ⟨?_, ?_⟩
  · rw [same]
    exact ending
  · by_cases yes : b.StartDue
    · obtain ⟨at_, items⟩ := due yes
      obtain ⟨items, places⟩ := items (by rw [queue]; exact Nat.zero_lt_succ 7)
      rw [if_pos (starts.mp yes), if_pos (starts.mp yes), at_, items, places, queue]
      exact ⟨rfl, rfl, place⟩
    · obtain ⟨at_, journal⟩ := notDue yes
      rw [if_neg (mt starts.mpr yes), if_neg (mt starts.mpr yes), at_, journal]
      exact ⟨checkpoint, queue, place⟩

theorem committed_of_room (room : w.journal.queue.length < 8) : w.committed = { w with
    arbiter := { w.arbiter with hold := .granted }
    renewal := { w.renewal with state := .committing }
    commit := some ⟨w.time.t, false, .begin, [], none, []⟩
    journal := { w.journal with queue := w.journal.queue ++ [⟨.append (.commitBegin w.renewal.sequence w.time.t), .commitBegin⟩] } } :=
  if_pos room

/-- With the fault mark set start-up ends in FAULT and hands nothing over (R170, R171). -/
theorem finished_marked {e : Erase} (finished : (b.setErase e).Finished w) (mark : b.supply.faultMark = true) :
    w.supply.run = .fault ∧ w.journal = b.journal ∧ w.commit = b.commit ∧ w.renewal = { b.renewal with activation := b.startupFlag } := by
  have ending : b.supply.endState = .fault := if_pos mark
  obtain ⟨⟨v, m, n, c, q, p, same⟩, -, -, -, notDue⟩ := finished
  have journal : w.journal = b.journal := (notDue fun due => absurd (ending.symm.trans due.1) nofun).2
  refine ⟨?_, journal, ?_, ?_⟩
  · rw [same]
    exact ending
  · rw [same]
    rfl
  · rw [same]
    rfl

/-- The flag of a restored batch at the end of start-up outside RETIRED (R157, R186). -/
theorem startupFlag_booted {s : State} {c : Scan} (booted : s.Booted c b) (life : b.supply.lifeCycle ≠ .retired) {a : Nat × Option Nat × List StepOutcome}
    (opened : c.opened = none) (arm : c.arm = some a) : b.startupFlag = a.2.1.any fun x => decide (x ≤ b.time.t) := by
  have batch : b.renewal = .restored a.1 a.2.1 a.2.2 (c.steps a.1) := by
    rw [booted_renewal booted, Scan.batch, opened, arm]
    rfl
  rw [State.startupFlag, batch, if_pos ⟨life, rfl⟩]
  rfl

end

/-- Settles O4: the state at the end of stage 4 by `begun_settles`, the end of start-up by `State.Opens`, the roll-forward by
`rolling_computes`. -/
theorem startUpRebuildsFromTheRing : Obligations.StartUpRebuildsFromTheRing := by
  unfold Obligations.StartUpRebuildsFromTheRing
  refine ⟨fun adrM adrL s => ⟨fun high => ?_, fun held => ?_, fun low away => ?_, fun away low => ?_⟩, ?_⟩
  · change execRstnRelease adrM adrL s = _
    rw [execRstnRelease, high]
    rfl
  · change execSupplyReturn adrM adrL s = _
    rw [execSupplyReturn, held]
    rfl
  · change execRstnRelease adrM adrL s = _
    rw [execRstnRelease, low, if_pos rfl, State.beginStartup, if_neg (by simp [away])]
  · change execSupplyReturn adrM adrL s = _
    rw [execSupplyReturn, away, if_neg (by simp), State.beginStartup, if_neg (by simp [low])]
  · intro cause adrM adrL q ring banks pins s c begins lifeCycle marked
    obtain ⟨b, booted, opens, rolls⟩ := begun_settles (s := State.powered q ring banks pins adrM adrL) (c := c) rfl rfl
      (fun b => booted_booting) rfl
    obtain ⟨stored, heldBanks, -, -⟩ := scanned_store (storeLeft ring banks)
    have markedIff : (State.powered q ring banks pins adrM adrL).Marked c ↔ marked :=
      marked_congr (s := s) heldBanks c
    rw [markedIff] at opens rolls
    have cause' := exec_cause (q := q) (ring := ring) (banks := banks) begins
    generalize ((State.powered q ring banks pins adrM adrL).begun c).settle = t at *
    obtain ⟨v, m, same⟩ := booted.same
    have rolled (going : ¬ (marked ∨ c.opened = none)) : ∃ x q p, t = { b with
        commit := x, journal := { b.journal with queue := q, place := p } } := by
      obtain ⟨clear, opened⟩ := not_or.mp going
      obtain ⟨⟨sequence, tc⟩, opened⟩ := Option.ne_none_iff_exists'.mp opened
      obtain ⟨x, q, p, eq⟩ := computeCommit_eq (b.rolling tc)
      exact ⟨x, q, p, (rolls sequence tc clear opened).trans eq⟩
    have kept : b.KeptFrom t := by
      by_cases ends : marked ∨ c.opened = none
      · exact (opens ends).keptFrom
      · obtain ⟨x, q, p, eq⟩ := rolled ends
        rw [eq]
        exact ⟨rfl, ⟨q, p, b.journal.failures, rfl⟩, ⟨rfl, rfl, rfl⟩, rfl, ⟨rfl, rfl, rfl⟩⟩
    have booting := booted_booting booted
    obtain ⟨queue', place', failures, held⟩ := kept.held
    have journal : b.journal = (storeLeft ring banks).scanned := by rw [same]; rfl
    rw [journal] at held
    refine ⟨t, cause', ?_, ?_, ?_, ?_, ?_, ?_, ?_, ?_, ?_, ?_, ?_, ?_, ?_, ?_, ?_, ?_, ?_⟩
    · rw [kept.pending, same]
      rfl
    · rw [held]
      exact stored
    · rw [held]
      exact heldBanks
    · rw [kept.supply.1, same]
      rfl
    · rw [kept.supply.2.1, same]
      rfl
    · rw [kept.supply.2.2, same]
    · rw [kept.engine, same]
      rfl
    · intro tb base
      have at_ := booted.time tb base
      refine ⟨kept.time.1.trans at_, kept.time.2.1.trans ?_⟩
      rw [same]
      exact at_
    · intro base
      obtain ⟨found, all⟩ := booted.fallback base
      rw [kept.time.1, kept.time.2.1]
      refine ⟨?_, found, all⟩
      rw [same]
    · rw [held]
      split
      next n r newest => exact scanned_position newest
      next newest => exact scanned_position_of_none newest
    · intro n
      rw [held]
      exact scanned_isLive (storeLeft ring banks) n
    · intro l code o base
      rw [kept.time.2.2, same]
      exact code_of_base base
    · intro ended
      have ends : marked ∨ c.opened = none := Classical.byContradiction fun going => by
        obtain ⟨x, q, p, eq⟩ := rolled going
        rw [eq] at ended
        exact ended booting.run
      obtain ⟨slot, demands, portM, portL⟩ := (opens ends).showsEnd booting.run ended
      have asked (p : Port) : b.queue p = [] := by
        rw [same]
        cases p <;> rfl
      have time := kept.time.1
      have head (p : Port) : (t.queue p).head? = some ⟨.restarted, none, none, none, t.time.t⟩ := by
        rw [demands, startupDemands_head b p (asked p), time]
      refine ⟨?_, ?_, head .M, head .L, fun stays p => ?_⟩
      · rw [portM, same]
        rfl
      · rw [portL, same]
        rfl
      · have life : b.supply.lifeCycle ≠ .retired := by
          rw [same]
          exact stays
        rw [demands, asked, startupDemands_booted booted life, time]
        congr 2
        · refine congrArg _ (flatMap_eq_of_mem fun i _ => ?_)
          rw [slot, if_neg life, Slot.raisedAtEnd]
          cases ((b.slot i).evaluated b.time.t).current <;> rfl
        · rw [Scan.armedDemands]
          rcases c.arm with _ | ⟨sequence, tick, outcomes⟩ <;> rfl
    · intro tb clear opened life base handed
      have bt : b.time.t = tb := booted.time tb base
      have stays : b.supply.lifeCycle ≠ .retired := by
        rw [same]
        exact life
      have mark : b.supply.faultMark = false := by
        refine eq_false_of_ne_true fun marks => ?_
        rcases booted.mark.mp marks with set_ | marks
        · exact absurd set_ nofun
        · exact clear (markedIff.mp marks)
      have warning : b.supply.warning = pins.warning := by rw [same]; rfl
      have quiet {w : State} (finished : b.Finished w) :=
        finished_quiet finished booting.queue booting.place mark (by rw [same]) (by rw [same])
      simp only [bt, warning] at quiet
      have outcome : (¬ b.StartsCommit ∧ b.Finished t) ∨ (b.StartsCommit ∧ ∃ w, b.Finished w ∧ t = w.committed) := by
        cases opens (.inr opened) with
        | waits e retired => exact absurd retired stays
        | retired e _ retired => exact absurd retired stays
        | ends _ _ not finished => exact .inl ⟨not, finished⟩
        | commits w _ starts finished => exact .inr ⟨starts, w, finished, rfl⟩
      have room {w : State} (finished : b.Finished w) : w.journal.queue.length < 8 := by
        rw [(quiet finished).2.2.1]
        split
        · exact (by decide : 1 < 8)
        · exact Nat.zero_lt_succ 7
      have shows_ : t.supply.run = (if pins.warning then .quiescent else .run) ∧ t.time.checkpoint =
          (if pins.warning = false ∧ tb < LIMIT then some (min (tb + 64) LIMIT) else none) := by
        rcases outcome with ⟨-, finished⟩ | ⟨-, w, finished, rfl⟩
        · exact ⟨(quiet finished).1, (quiet finished).2.1⟩
        · rw [committed_of_room (room finished)]
          exact ⟨(quiet finished).1, (quiet finished).2.1⟩
      obtain ⟨slot, demands, -, -⟩ := (opens (.inr opened)).showsEnd booting.run (by rw [shows_.1]; split <;> exact nofun)
      simp only [if_neg stays, bt] at slot
      refine ⟨shows_.1, shows_.2, fun arm => ?_, fun sequence tick outcomes arm => ?_, fun i => ?_⟩
      · have idle : b.renewal = .idle := by
          rw [booted_renewal booted, Scan.batch, opened, arm]
          rfl
        rcases outcome with ⟨-, finished⟩ | ⟨starts, -⟩
        · have queued := (quiet finished).2.2.1
          obtain ⟨⟨v', m', n', k', q', p', ended⟩, -⟩ := finished
          have flag : b.startupFlag = false := by
            rw [State.startupFlag, idle, if_neg fun both => absurd both.2 nofun]
            rfl
          refine ⟨?_, ?_, queued, fun i => ?_⟩
          · rw [ended, flag, idle]
            rfl
          · rw [ended, same]
            rfl
          · rw [slot, booted.slot, Scan.next, arm]
            rfl
        · exact absurd (idle ▸ starts.1) nofun
      · intro reached armed
        have batch : b.renewal = armed := by
          rw [booted_renewal booted, Scan.batch, opened, arm]
          rfl
        have flag : b.startupFlag = true ↔ reached := by
          rw [startupFlag_booted booted stays opened arm, bt, Option.any_eq_true]
          simp [reached]
        have starts : b.StartsCommit ↔ reached ∧ pins.warning = false := by
          rw [State.StartsCommit, flag, batch, Supply.endState, mark, warning]
          cases pins.warning <;> simp [armed]
        have finishedAs {w : State} (finished : b.Finished w) : w.renewal = { armed with activation := b.startupFlag } ∧ w.commit = none ∧
            w.time.t = tb := by
          obtain ⟨⟨v', m', n', k', q', p', ended⟩, -⟩ := finished
          rw [ended]
          refine ⟨by rw [batch], ?_, bt⟩
          rw [same]
          rfl
        have plain (not : ¬ (reached ∧ pins.warning = false)) : b.Finished t := by
          rcases outcome with ⟨-, finished⟩ | ⟨yes, -⟩
          · exact finished
          · exact absurd (starts.mp yes) not
        refine ⟨fun not => ?_, fun yes low => ?_, fun yes high => ?_, fun stopped => ?_, fun x mem => ?_, fun i => ?_⟩
        · rw [(finishedAs (plain fun both => not both.1)).1, eq_false_of_ne_true (mt flag.mp not)]
          rfl
        · rw [(finishedAs (plain fun both => absurd (low.symm.trans both.2) nofun)).1, flag.mpr yes]
        · rcases outcome with ⟨not, -⟩ | ⟨-, w, finished, rfl⟩
          · exact absurd (starts.mpr ⟨yes, high⟩) not
          · obtain ⟨renewal, -, time⟩ := finishedAs finished
            rw [committed_of_room (room finished), time, renewal, flag.mpr yes, (quiet finished).2.2.1]
            exact ⟨rfl, rfl, rfl, rfl⟩
        · have finished := plain fun both => stopped.elim (fun not => not both.1) fun low => absurd (low.symm.trans both.2) nofun
          exact ⟨(finishedAs finished).2.1, (quiet finished).2.2.1⟩
        · have armedLast (p : Port) : ⟨.batchArmed, none, none, some sequence, tb⟩ ∈ t.queue p ∨ ∃ d ∈ t.queue p, d.kind = .queueFull := by
            rw [demands, startupDemands_booted booted stays, Scan.armedDemands, arm, List.foldl_append, bt]
            exact mem_arrive _ _
          simp only [List.mem_cons, List.not_mem_nil, or_false] at mem
          rcases mem with rfl | rfl
          · exact armedLast .M
          · exact armedLast .L
        · rw [slot, booted.slot, Scan.next, arm]
          rfl
      · have pinned : (t.slot i).pin = none ∧ (t.slot i).wait = none := by
          rw [slot, booted.slot]
          cases entry : c.base (.slot i) with
          | none => rw [slot_of_no_base entry]; exact ⟨rfl, rfl⟩
          | some x =>
            obtain ⟨o, m, rfl⟩ := base_slot entry
            rw [slot_of_base entry]
            exact ⟨rfl, rfl⟩
        refine ⟨pinned.1, pinned.2, fun j oj m entry => ?_, fun entry => ?_⟩
        · obtain ⟨o, x, found⟩ := base_slot entry
          obtain ⟨rfl, rfl, rfl⟩ := Body.slot.inj found
          have at_ : t.slot j = { role := m.role, userMap := m.userMap, notifyMap := m.notifyMap, policy := m.policy, pin := none
                                  current := (m.current.map (c.current j m)).map fun k => k.evaluated m.policy tb
                                  next := c.next j, prior := (m.prior.map (c.prior j m)).filter fun k => decide (tb < k.graceEnd)
                                  wait := none } := by
            rw [slot, booted.slot, slot_of_base entry]
            rfl
          rw [at_]
          refine ⟨rfl, rfl, rfl, rfl, ?_, fun k present k' restored => ?_, fun y policy => ?_⟩
          · cases m.current <;> rfl
          · obtain rfl : (c.current j m k).evaluated m.policy tb = k' := by
              rw [Option.mem_def.mp present] at restored
              exact Option.some.inj restored
            refine ⟨rfl, rfl, rfl, rfl, fun issue => restored_issue issue, fun other y policy => restored_floor other policy, ?_,
              fun y policy => ?_⟩
            · rw [restored_state]
              change _ = match (c.current j m k).counters with | .issue n _ limit => _ | .floor f _ => _
              cases (c.current j m k).counters <;> simp [Counters.atLimit]
            · exact restored_marks (c := c) (i := j) m k tb policy
          · rw [Option.mem_def.mp policy]
            refine congrArg (Option.filter _) ?_
            refine Option.map_congr fun k _ => ?_
            rw [Scan.prior, policy]
            rfl
        · rw [slot, booted.slot, slot_of_no_base entry]
          exact ⟨rfl, rfl, rfl⟩
    · intro marks
      have mark : b.supply.faultMark = true := booted.mark.mpr (.inr (markedIff.mpr marks))
      have outcome : ∃ e, (b.setErase e).Finished t := by
        cases opens (.inl marks) with
        | waits e _ _ _ clear => exact absurd (mark.symm.trans clear) nofun
        | retired e _ _ _ _ finished => exact ⟨e, finished⟩
        | ends _ _ _ finished => exact ⟨b.supply.erase, finished⟩
        | commits w _ starts => exact absurd (starts.2.2.symm.trans (if_pos mark)) nofun
      obtain ⟨e, finished⟩ := outcome
      obtain ⟨fault, kept', commit, renewal⟩ := finished_marked finished mark
      refine ⟨fault, by rw [kept', booting.queue], by rw [kept', booting.place], ?_, fun sequence tc opened => ?_⟩
      · rw [commit, same]
        rfl
      · have batch : b.renewal = .opened sequence (c.steps sequence) := (booted_renewal booted).trans (batch_of_opened opened)
        have flag : b.startupFlag = true := by
          rw [State.startupFlag, batch, if_neg fun both => absurd both.2 nofun]
          rfl
        rw [renewal, flag, batch]
        rfl
    · intro sequence tc clear opened x entries
      have batch : b.renewal = .opened sequence (c.steps sequence) := (booted_renewal booted).trans (batch_of_opened opened)
      have mark : b.supply.faultMark = false := by
        refine eq_false_of_ne_true fun marks => ?_
        rcases booted.mark.mp marks with set_ | marks
        · exact absurd set_ nofun
        · exact clear (markedIff.mp marks)
      have computes := rolling_computes (c := c) (tc := tc) booting mark batch
      rw [← rolls sequence tc clear opened] at computes
      obtain ⟨y, q', p', eq⟩ := rolled (by rw [opened]; exact fun ends => ends.elim clear nofun)
      have contents : x = b.compute tc sequence (c.steps sequence) := by
        have fixed : t.slots = b.slots ∧ t.time = b.time := by
          rw [eq]
          exact ⟨rfl, rfl⟩
        exact compute_congr fixed.1 fixed.2 tc sequence (c.steps sequence)
      dsimp only [entries]
      rw [contents]
      refine ⟨?_, ?_, fun i => ?_, computes⟩
      · rw [eq]
        exact booting.run
      · rw [eq]
        exact batch
      · have slot : t.slot i = b.slot i := by rw [eq]; rfl
        rw [slot, booted.slot, Scan.next, arm_of_opened opened, Option.bind_none, ← slot_next c i]
    · intro clear opened retired
      have retired' : b.supply.lifeCycle = .retired := by
        rw [same]
        exact retired
      have warning : b.supply.warning = pins.warning := by rw [same]; rfl
      have mark : b.supply.faultMark = false := by
        refine eq_false_of_ne_true fun marks => ?_
        rcases booted.mark.mp marks with set_ | marks
        · exact absurd set_ nofun
        · exact clear (markedIff.mp marks)
      have outcome : (∃ e, (b.setErase e).EraseStandsFrom 0 ∧ b.supply.warning = false ∧ e ≠ .complete ∧ t = b.erasing e) ∨
          ∃ e, (b.setErase e).EraseStandsFrom 0 ∧ (b.supply.warning = true ∨ e = .complete) ∧ (b.setErase e).Finished t := by
        cases opens (.inr opened) with
        | waits e _ stands released _ going => exact .inl ⟨e, stands, released, going, rfl⟩
        | retired e _ _ stands ended finished =>
          refine .inr ⟨e, stands, ended.imp_left fun not => ?_, finished⟩
          exact eq_true_of_ne_false fun released => not ⟨released, mark⟩
        | ends _ life => exact absurd retired' life
        | commits _ life => exact absurd retired' life
      rcases outcome with ⟨e, stands, released, going, rfl⟩ | ⟨e, stands, reason, finished⟩
      · refine ⟨stands, fun _ _ => ⟨booting.run, rfl⟩, fun low => ?_, fun _ complete => absurd complete going, fun ended => ?_⟩
        · exact absurd (released.symm.trans (warning.trans low)) nofun
        · exact absurd booting.run ended
      · have demands (x : Port) : t.queue x = [⟨.restarted, none, none, none, b.time.t⟩] := by
          have asked : (b.setErase e).queue x = [] := by
            rw [same]
            cases x <;> rfl
          have one : (b.setErase e).startupDemands x = [⟨.restarted, none, none, none, b.time.t⟩] := by
            rw [State.startupDemands, if_pos (by exact retired')]
            rfl
          rw [finished.queue, asked, one]
          rfl
        have ending : b.supply.endState = if pins.warning then .quiescent else .run := by simp [Supply.endState, mark, warning]
        have notDue := finished.notDue
        obtain ⟨⟨v', m', n', k', q', p', ended⟩, -⟩ := finished
        have run : t.supply.run = if pins.warning then .quiescent else .run := by
          rw [ended]
          exact ending
        have erase : t.supply.erase = e := by rw [ended]; rfl
        refine ⟨?_, fun low going => ?_, fun high => ⟨?_, ?_⟩, fun low _ => ?_, fun _ => ⟨?_, ?_⟩⟩
        · rw [ended]
          exact stands
        · rcases reason with held | complete
          · exact absurd (held.symm.trans (warning.trans low)) nofun
          · exact absurd (erase.trans complete) going
        · rw [run, high]
          rfl
        · have due : ¬ (b.setErase e).StartDue := fun due => by
            have running : b.supply.endState = .run := due.1
            rw [ending, high] at running
            exact absurd running nofun
          rw [(notDue due).2]
          exact booting.queue
        · rw [run, low]
          rfl
        · rw [kept.time.1]
          exact demands .M
        · exact (demands .L).trans (demands .M).symm

end Sys2Proof.Machine
end

section
/-! PROOFS. The first start-up of a delivered part (R130, R137, R171). -/

namespace Sys2Proof.Machine

/-- The four records of a delivered part, by position and lap (R137). -/
def deliveredRecords : List (Nat × BitVec 8 × Body) :=
  [(0, 0, .lifecycle .factory 0 none), (1, 0, .slot 0 none .delivered), (2, 0, .floor 0 1 0 none), (3, 0, .time 0)]

theorem scan_delivered : scanRing deliveredRing = tScan deliveredRecords := tScan_eq deliveredRecords

/-- What the scan of a delivered part finds (R137, R153). -/
theorem delivered_found :
    let c := tScan deliveredRecords
    c.base .lifecycle = some (.lifecycle .factory 0 none) ∧ c.base .time = some (.time 0) ∧ c.opened = none ∧ c.arm = none ∧
    c.lifeCycle = .factory ∧ c.code = 0 := by decide +kernel

theorem delivered_slots :
    let c := tScan deliveredRecords
    c.slot 0 = { role := .renew, userMap := .none, notifyMap := .both, policy := some ⟨1, 0, 0, 0, 0, .carryOn⟩, pin := none,
                 current := some ⟨1, .live, 0, none, .floor 0 0, 0, false, false⟩, next := none, prior := none, wait := none } ∧
    ∀ i, i ≠ 0 → c.slot i = Slot.blank := by decide +kernel

/-- No condition of the delivered table is due at T = 0 (R186). -/
theorem delivered_conditions : ∀ x, ((List.finRange 24).flatMap fun i => ((tScan deliveredRecords).slot i).conditionsFor i 0 true x) = [] := by
  rintro (_ | _)
  · decide +kernel
  · decide +kernel

theorem delivered_evaluated : ∀ i, ((tScan deliveredRecords).slot i).evaluated 0 = (tScan deliveredRecords).slot i := by decide +kernel

theorem delivered_live :
    let c := tScan deliveredRecords
    (c.records.filter fun e => liveAtScan c.newest c.sequence c.records e).map Prod.fst = [0, 1, 2, 3] ∧
    (latest c.newest (fun _ => true) c.records).map (fun e => (e.1, e.2.lap)) = some (3, 0) := by decide +kernel

/-- The journal of a delivered part after the scan (R137, R152). -/
theorem delivered_journal : (storeLeft deliveredRing deliveredBanks).scanned = ⟨deliveredRing, deliveredBanks, [], [], 4, 0, [0, 1, 2, 3], 0⟩ := by
  obtain ⟨live, newest⟩ := delivered_live
  obtain ⟨⟨n, r⟩, found, same⟩ := Option.map_eq_some_iff.mp newest
  obtain ⟨rfl, lap⟩ := Prod.mk.inj same
  unfold Journal.scanned storeLeft
  dsimp only
  rw [scan_delivered, live, found]
  dsimp only
  rw [lap]
  rfl

/-- The delivered image of slot 0 is valid, so that start-up does not set the fault mark (R154). -/
theorem delivered_not_marked {s : State} (banks : s.journal.banks = deliveredBanks) : ¬ s.Marked (tScan deliveredRecords) := by
  obtain ⟨life, time, opened, arm, -⟩ := delivered_found
  obtain ⟨renew, blank⟩ := delivered_slots
  have valid : s.journal.validImage 0 0 1 = true := by
    rw [validImage_congr (j := storeLeft deliveredRing deliveredBanks) banks]
    exact BankCell.validFor_made ..
  rintro (none | none | ⟨-, i, ⟨k, current, invalid⟩ | ⟨k, prior, -⟩⟩ | ⟨q, tc, found, -⟩ | ⟨q, tick, o, found, -⟩)
  · exact absurd (life.symm.trans none) nofun
  · exact absurd (time.symm.trans none) nofun
  · by_cases zero : i = 0
    · subst zero
      rw [renew] at current
      obtain rfl := Option.some.inj current
      exact absurd (valid.symm.trans invalid) nofun
    · rw [blank i zero] at current
      exact absurd current nofun
  · by_cases zero : i = 0
    · subst zero
      rw [renew] at prior
      exact absurd prior nofun
    · rw [blank i zero] at prior
      exact absurd prior nofun
  · exact absurd (opened.symm.trans found) nofun
  · exact absurd (arm.symm.trans found) nofun

/-- Settles O3. -/
theorem firstStartUpEndsInRun : Obligations.FirstStartUpEndsInRun := by
  unfold Obligations.FirstStartUpEndsInRun
  intro adrM adrL
  have released := exec_cause (q := []) (ring := deliveredRing) (banks := deliveredBanks) (pins := State.reset.supply) (adrM := adrM)
    (adrL := adrL) (.inl ⟨rfl, rfl, rfl⟩)
  have returned := exec_cause (q := []) (ring := deliveredRing) (banks := deliveredBanks)
    (pins := { State.reset.supply with inRange := false, rstnLow := false }) (adrM := adrM) (adrL := adrL) (.inr ⟨rfl, rfl, rfl⟩)
  refine ⟨_, released, returned, ?_⟩
  obtain ⟨lifecycle, base, opened, arm, life, code⟩ := delivered_found
  obtain ⟨renew, blank⟩ := delivered_slots
  obtain ⟨b, booted, opens, -⟩ := begun_settles (s := State.powered [] deliveredRing deliveredBanks State.reset.supply adrM adrL)
    (c := scanRing deliveredRing) rfl rfl (fun b => booted_booting) rfl
  generalize ((State.powered [] deliveredRing deliveredBanks State.reset.supply adrM adrL).begun (scanRing deliveredRing)).settle = t at *
  rw [scan_delivered] at booted opens
  have booting := booted_booting booted
  have time : b.time.t = 0 := booted.time 0 base
  have mark : b.supply.faultMark = false := by
    refine eq_false_of_ne_true fun marks => ?_
    rcases booted.mark.mp marks with set_ | marked
    · exact absurd set_ nofun
    · exact delivered_not_marked (scanned_store (storeLeft deliveredRing deliveredBanks)).2.1 marked
  have slots (i : Fin 24) : b.slot i = (tScan deliveredRecords).slot i := by
    rw [booted.slot, Scan.next, arm, Option.bind_none, ← slot_next _ i]
  have idle : b.renewal = .idle := by
    rw [booted_renewal booted, Scan.batch, opened, arm]
    rfl
  obtain ⟨v, m, same⟩ := booted.same
  have stays : b.supply.lifeCycle = .factory := by
    rw [same]
    exact life
  have finished : b.Finished t := by
    cases opens (.inr opened) with
    | waits e retired => exact absurd (stays.symm.trans retired) nofun
    | retired e _ retired => exact absurd (stays.symm.trans retired) nofun
    | ends _ _ _ finished => exact finished
    | commits w _ starts => exact absurd (idle ▸ starts.1) nofun
  have shows_ := State.Finished.showsEnd (e := b.supply.erase) finished
  have quiet := finished_quiet finished booting.queue booting.place mark (by rw [same]) (by rw [same])
  have released' : b.supply.warning = false := by rw [same]; rfl
  obtain ⟨⟨v', m', n', c', q', p', ended⟩, -⟩ := finished
  obtain ⟨slot, queue, portM, portL⟩ := shows_
  have staying : b.supply.lifeCycle ≠ .retired := by rw [stays]; exact nofun
  simp only [if_neg staying, time, slots, delivered_evaluated] at slot
  have demands (x : Port) : t.queue x = [⟨.restarted, none, none, none, 0⟩] := by
    have asked : b.queue x = [] := by
      rw [same]
      cases x <;> rfl
    rw [queue, asked, State.startupDemands, if_neg staying, idle, time]
    simp only [slots, delivered_conditions]
    rfl
  have journal : b.journal = ⟨deliveredRing, deliveredBanks, [], [], 4, 0, [0, 1, 2, 3], 0⟩ := by
    rw [same]
    exact delivered_journal
  simp only [time, released'] at quiet
  obtain ⟨run, checkpoint, queued, -⟩ := quiet
  have held : t.journal = { b.journal with queue := q', place := p' } := by rw [ended]
  rw [journal] at held
  refine ⟨run, ?_, ?_, ?_, ?_, checkpoint, queued, ?_, ?_, ?_, ?_, ?_, ?_, fun i other => ?_, demands .M, demands .L, ?_, ?_⟩
  · rw [ended]
    exact stays
  · rw [ended, same]
    exact code
  · rw [ended]
    exact time
  · rw [ended]
    refine Eq.trans ?_ time
    rw [same]
  · rw [held]
  · rw [held]
  · rw [held]
  · rw [held]
    rfl
  · rw [held]
    rfl
  · rw [slot]
    exact renew
  · rw [slot]
    exact blank i other
  · rw [portM, same]
    rfl
  · rw [portL, same]
    rfl

end Sys2Proof.Machine
end

section
/-! PROOFS. The law of the key table is not kept from every lawful state: it counts the FLOOR record of the authenticator stage by its
requester, and does not say that the write of that requester is a FLOOR record. -/

namespace Sys2Proof.Machine

/-- The part of `tKeys` in the floor-write stage of a checking, with `.checkFloor` the requester of a write that is no FLOOR record. -/
def floorless : State :=
  { tKeys with
    pending := [.writeComplete]
    renewal := { Renewal.idle with state := .checking, checking := some .floorWrite }
    journal := { tKeys.journal with queue := [⟨.bankErase 0 0, .checkFloor true⟩] } }

/-- The same part when that write has completed: it is gone from the queue and its requester has done nothing. -/
def floorlessDone : State :=
  let j := tKeys.journal.eraseBank 0 0
  { floorless with pending := [], journal := { j with queue := [], failures := 0 } }

/-- Checking, the batch and the commit are lawful in `floorless`; the rest of the law it shares with `tKeys`. -/
theorem floorless_keysLawful : floorless.KeysLawful := by
  intro started
  obtain ⟨rstn, range, renew, slots, charge, compare, -⟩ := tKeys_keysLawful started
  have disarms : floorless.journal.disarmsOf = [] := by decide
  have requests : ∀ p, (floorless.port p).request = none := fun p => by cases p <;> rfl
  refine ⟨rstn, range, renew, slots, charge, compare, ?stage, ?batch⟩
  case stage => exact ⟨rfl, by decide, rfl, by decide, by decide, by decide, rfl⟩
  case batch =>
    refine ⟨nofun, by decide, nofun, nofun, nofun, ?_, ?_, ?_, nofun, ?_, ?_, ?_⟩
    · rw [disarms]
      decide
    · rw [disarms]
      exact fun some => absurd rfl some
    · intro p
      rw [requests p]
      trivial
    · intro e mem
      obtain rfl : e = ⟨.bankErase 0 0, .checkFloor true⟩ := List.mem_singleton.mp mem
      trivial
    · exact fun x mem => absurd mem List.not_mem_nil
    · exact fun a mem => absurd mem List.not_mem_nil

theorem floorless_journal_lawful : floorless.journal.Lawful :=
  ⟨⟨rfl, rfl, rfl, rfl⟩, by unfold Journal.Bounded; decide +kernel⟩

/-- The completion takes the write from the queue and leaves the stage as it is. -/
theorem step_floorless : step floorless = .next floorlessDone := by
  have completes : exec .writeComplete (floorless.withPending []) = .next floorlessDone.settle :=
    execWriteComplete_of_place_nil (s := floorless.withPending []) (e := ⟨.bankErase 0 0, .checkFloor true⟩) (rest := []) rfl rfl rfl
  have rest : floorlessDone.AtRest := ⟨by decide +kernel, by decide⟩
  change exec .writeComplete (floorless.withPending []) = _
  rw [completes, settle_of_atRest rest]

/-- In `floorlessDone` no FLOOR record stands for the floor-write stage. -/
theorem not_floorlessDone_keysLawful : ¬ floorlessDone.KeysLawful := by
  intro lawful
  obtain ⟨-, -, -, -, -, -, stage, -⟩ := lawful (by decide)
  obtain ⟨-, -, -, one, -⟩ : floorlessDone.renewal.state = .checking ∧ floorlessDone.supply.run ≠ .fault ∧
    floorlessDone.checkOps = [] ∧ floorlessDone.journal.floorsOf.length = 1 ∧ _ := stage
  exact absurd one (by decide)

/-- Refutes O60: the law of the key table is not inductive. In the floor-write stage it asks for one write whose requester is `.checkFloor
true`, but lets that write be any: the completion of one that is no FLOOR record, here a bank erase, takes it away and does not end the
stage. (`State.authenticated` itself hands over only a FLOOR record for it; the law does not say so.) -/
theorem not_resetMeetsTheLaws : ¬ Obligations.ResetMeetsTheLaws := by
  unfold Obligations.ResetMeetsTheLaws
  rintro ⟨-, -, kept, -⟩
  exact not_floorlessDone_keysLawful
    (kept floorless floorlessDone floorless_keysLawful floorless_journal_lawful (by decide) step_floorless)

end Sys2Proof.Machine
end
